-- ==== Sys2Proof/Word.lean ====
section
/-! DEFINITION. The bit-vector types of the block: the widths of `00_scope.md` rule R6. -/

namespace Sys2Proof

/-- A received byte, and one element of the frame buffer (R6 `DATA_W` = 8; R21). -/
abbrev Byte := BitVec 8

/-- A microsecond timestamp, and a gap (R6 `TS_W` = 32; R25). -/
abbrev Timestamp := BitVec 32

/-- The 16-bit pattern of a channel value, two's complement (R6 `CH_W` = 16; R24), and the width of `rd_value` (R31). -/
abbrev ChWord := BitVec 16

/-- A channel's raw value, an unsigned 16-bit number (R106). -/
abbrev RawWord := BitVec 16

/-- A command word (R61: "Every command is one fixed-length 42-bit word"). -/
abbrev CmdWord := BitVec 42

end Sys2Proof
end

