-- ==== Sys2Proof/Syntax.lean ====
section
/-! DEFINITION. The operations of the block (R60), the ports they arrive at (R31) and the raw fields of a command
word (R61). -/

namespace Sys2Proof

/-- The three operations of `spec/opcode_table.json`, one constructor per row (R60). No field is sign-extended, scaled
or shifted (R66), and every value of every field is legal (R63, R65). -/
inductive Instr where
  /-- RX_BYTE (R63, R80): the received byte `data` and the clock reading `ts` at its arrival. -/
  | rxByte (data : Byte) (ts : Timestamp)
  /-- POLL (R64, R100): no operands. -/
  | poll
  /-- READ (R65, R130): the channel index `idx`, unsigned. -/
  | read (idx : Byte)
  deriving DecidableEq, Repr

/-- The two command ports (R31), which also name the two agents (R12, R145). -/
inductive Port where
  | producer
  | consumer
  deriving DecidableEq, Repr

/-- The fields of a command word (R61): `op` = [41:40], `a8` = [39:32], `ts` = [31:0]. -/
structure Command where
  op : BitVec 2
  a8 : Byte
  ts : Timestamp
  deriving DecidableEq, Repr

end Sys2Proof
end

