-- ==== Sys2Proof/WellFormed.lean ====
section
/-! DEFINITION. Which commands and operations are well formed: the must-be-zero fields of R61, the reserved operation
of R68 and the port discipline of R62 and R69. -/

namespace Sys2Proof

/-- The port an operation is legal on (R62). -/
def Instr.port : Instr → Port
  | .rxByte _ _ => .producer
  | .poll => .consumer
  | .read _ => .consumer

/-- An operation presented at a port is well formed when it is legal on that port (R62, R69). Its fields need no check:
each takes every value of its width (R63, R65). -/
def Instr.wellFormed (p : Port) (i : Instr) : Bool := i.port == p

/-- The fields of a command word are well formed when `op` is not reserved (R68) and every field R61 marks "must be 0"
is 0 (R69). -/
def Command.wellFormed (c : Command) : Bool :=
  c.op != 3 && (c.op != 1 || (c.a8 == 0 && c.ts == 0)) && (c.op != 2 || c.ts == 0)

end Sys2Proof
end

