-- ==== Sys2Proof/Decode.lean ====
section
/-! DEFINITION. The decoder of command words (R61 to R70), total over all 2^42 words at either port and rejecting by
name, and after it the encoder. -/

namespace Sys2Proof

/-- Why a command is refused (R68, R69). The machine keeps only the sticky mark of R27, not the reason. -/
inductive RefuseReason where
  /-- `op` = 0b11 names no operation (R68). -/
  | reservedOp
  /-- The operation is not legal on the port it arrived at (R69). -/
  | wrongPort
  /-- A field that must be 0 is not (R69). -/
  | mustBeZero
  deriving DecidableEq, Repr

/-- The fields of a command word, at the bit positions of R61. -/
def fieldsOf (w : CmdWord) : Command where
  op := w.extractLsb' 40 2
  a8 := w.extractLsb' 32 8
  ts := w.extractLsb' 0 32

/-- The port an `op` value is legal on; none for the reserved value (R62). -/
def opPort (op : BitVec 2) : Option Port :=
  if op = 0 then some .producer
  else if op = 1 then some .consumer
  else if op = 2 then some .consumer
  else none

/-- The operation an `op` value selects, with its fields (R62 to R65). It is used only after the refusals of R67. -/
def opInstr (c : Command) : Instr :=
  if c.op = 0 then .rxByte c.a8 c.ts
  else if c.op = 1 then .poll
  else .read c.a8

/-- The decoder of R67, in its order: the reserved operation, then the port, then the must-be-zero fields, then the
operation. -/
def decode (p : Port) (w : CmdWord) : Except RefuseReason Instr :=
  let c := fieldsOf w
  if c.op = 3 then .error .reservedOp
  else if opPort c.op ≠ some p then .error .wrongPort
  else if c.op = 1 ∧ ¬ (c.a8 = 0 ∧ c.ts = 0) then .error .mustBeZero
  else if c.op = 2 ∧ c.ts ≠ 0 then .error .mustBeZero
  else .ok (opInstr c)

/-- The fields an operation is written with (R62 to R65). -/
def commandOf : Instr → Command
  | .rxByte data ts => { op := 0, a8 := data, ts := ts }
  | .poll => { op := 1, a8 := 0, ts := 0 }
  | .read idx => { op := 2, a8 := idx, ts := 0 }

/-- The command word with given fields (R61). -/
def wordOf (c : Command) : CmdWord := c.op ++ c.a8 ++ c.ts

/-- The encoder: the command word of an operation (R63, R64, R65). -/
def encode (i : Instr) : CmdWord := wordOf (commandOf i)

/-- The port a word is presented at when only the word is given: the port its `op` is legal on. A reserved word is
refused at either port (R68). -/
def portOfWord (w : CmdWord) : Port := (opPort (fieldsOf w).op).getD .consumer

/-- The decoder on a word of the opcode table, whose bits it numbers as R61 does. Every command is 42 bits (R61, "No
other length exists"), so a number of more than 42 bits is no command; `nbits` carries nothing more (DEDUCED, log entry
9, safe). -/
def decodeTableWord (_nbits w : Nat) : Option Instr :=
  if w < 2 ^ 42 then (decode (portOfWord (BitVec.ofNat 42 w)) (BitVec.ofNat 42 w)).toOption else none

end Sys2Proof
end

