-- ==== Sys2Proof/Config.lean ====
section
/-! DEFINITION. The implementation parameters of `00_scope.md` rule R6. All but one are fixed constants; the OPEN
parameter `POLL_ATOMIC` is a field of `Config`, which the machine's state carries and no step changes. -/

namespace Sys2Proof

/-- The parameters an instance is built with. R6: "A model takes `POLL_ATOMIC` as an argument." -/
structure Config where
  /-- `POLL_ATOMIC` (R6, R109, decision D8): whether a POLL is one indivisible step. -/
  pollAtomic : Bool
  deriving DecidableEq, Repr

/-- The normative baseline, `POLL_ATOMIC` = false (R6, decision D8). -/
def Config.baseline : Config := { pollAtomic := false }

/-- The hardened variant, `POLL_ATOMIC` = true (R109). -/
def Config.hardened : Config := { pollAtomic := true }

/-- `FRAME_SIZE` (R6). -/
def Config.frameSize : Nat := 21

/-- `LAST_IDX` = `FRAME_SIZE` - 1 (R6): the last valid buffer index. -/
def Config.lastIdx : Fin 21 := 20

/-- `NUM_CH` (R6). -/
def Config.numCh : Nat := 8

/-- `SYNC` (R6): the value required at buffer index 0. -/
def Config.sync : Byte := 0xA8

/-- `MARK_IDX` = `FRAME_SIZE` - 2 (R6): the index that must hold `markValue`. -/
def Config.markIdx : Fin 21 := 19

/-- The value the marker byte must hold (R105: "byte 19 ... must equal 0"). -/
def Config.markValue : Byte := 0x00

/-- `GAP_US` (R6): the gap threshold in microseconds. -/
def Config.gapUs : Nat := 5000

/-- `SCALE_DIV` (R6): 6.4, exactly. -/
def Config.scaleDiv : ℚ := 64 / 10

/-- `SCALE_OFF` (R6). -/
def Config.scaleOff : Nat := 375

/-- `BAUD` (R6): the upstream UART's rate. The block does not use it, and neither does the model. -/
def Config.baud : Nat := 115200

end Sys2Proof
end

