-- ==== Sys2Proof/Machine/State.lean ====
section
/-! DEFINITION. The state of one CORE instance (R20), plain data, with the pending inputs and the delivered responses
that a transaction-level run needs, and its value at reset (R33). -/

namespace Sys2Proof.Machine

/-- Progress of the POLL in flight (R20, R26). -/
inductive PPhase where
  /-- No POLL is in flight. -/
  | idle
  /-- The POLL has seen `ready` = true and has not yet cleared it. -/
  | tested
  /-- The POLL has cleared `ready` and is sampling buffer bytes. -/
  | gather
  deriving DecidableEq, Repr

/-- A response, as an operation's `return` puts it on its response channel (R10, R31, R60). RX_BYTE has none. -/
inductive Response where
  /-- `poll_new`, POLL's 1-bit result (R100). -/
  | pollNew (b : Bool)
  /-- `rd_value`, READ's 16-bit result (R130). -/
  | rdValue (v : ChWord)
  deriving DecidableEq, Repr

/-- One choice of the scheduler that interleaves the agents' indivisible steps (R12, R46), or a reset (R160). -/
inductive Turn where
  /-- The producer agent takes its next step. -/
  | producer
  /-- The consumer agent takes its next step. If that step is a SAMPLE, `pick` chooses which of the indices still to be
  sampled it takes (R103: "the scheduler chooses k at each sample step"). -/
  | consumer (pick : Nat)
  /-- `rst` is asserted, between two indivisible steps (R160; DEDUCED, log entry 14, safe). -/
  | rst
  deriving DecidableEq, Repr

/-- The state of one instance. The first eight fields are the architectural state of R20, under its names. The others
are the model's own: the instance's parameters (constants, R6), what the agents and the scheduler are still to do, and the
responses delivered so far. -/
structure State where
  /-- `buf[0..20]`, the frame buffer (R21). -/
  buf : Vector Byte 21
  /-- `cursor`, the index of the next byte to write, an integer in [0, 21) (R20, R22). DEDUCED, log entry 12, safe: the
  values 21 to 31 that a 5-bit register could hold have no state here. -/
  cursor : Fin 21
  /-- `ready`, the frame-ready flag (R23). -/
  ready : Bool
  /-- `ch[0..7]`, the channel table: two's-complement patterns (R24). -/
  ch : Vector ChWord 8
  /-- `t_last`, the timestamp of the previous received byte (R25). -/
  tLast : Timestamp
  /-- `pphase` (R26). -/
  pphase : PPhase
  /-- `smp[k]` for k in K = 0, 3, 4, ..., 19 in rising order, each a byte or empty (R26): slot j holds
  `smp[slotIndex j]` (DEDUCED, log entry 11, safe). -/
  smp : Vector (Option Byte) 18
  /-- `refused`, the sticky mark (R27). -/
  refused : Bool
  /-- The instance's parameters; no step changes them (R6, R20; DEDUCED, log entry 2, safe). -/
  cfg : Config
  /-- The command words the producer agent has still to present, next first (DEDUCED, log entry 1, safe). -/
  producerPort : List CmdWord
  /-- The command words the consumer agent has still to present, next first (DEDUCED, log entry 1, safe). -/
  consumerPort : List CmdWord
  /-- The scheduler's choices still to be taken, next first (DEDUCED, log entry 1, safe). -/
  schedule : List Turn
  /-- The responses delivered so far, newest first (DESIGN CHOICE, log entry 6, safe). -/
  responses : List Response
  deriving DecidableEq, Repr

/-- R140: "CORE raises no exception, fault or trap." The machine has no fault, so this type has no constructor. -/
inductive Fault
  deriving DecidableEq, Repr

/-- Why an operation gets no meaning. A command word that names no operation is NOT one of these: the spec gives it an
effect, the sticky mark `refused` (R10, R27), and the machine goes on. -/
inductive Refusal where
  /-- Raised by an arm of `exec` with no meaning yet. Safe. No arm raises it. -/
  | notModelled (mnemonic : String)
  /-- Raised by `execPoll` and `execRead` when the state has a POLL in flight, where the consumer issues no operation
  (R48). DESIGN CHOICE, log entry 8, safe. No step raises it: a command at the consumer port waits until
  `pphase` = IDLE. -/
  | consumerBusy
  deriving DecidableEq, Repr

/-- The value of `buf` at reset (R33; the spec's own decision D7, log entry 3, unsafe). -/
def resetBuf : Vector Byte 21 := Vector.replicate 21 0x00

/-- The value of `ch` at reset (R33; the spec's own decision D7, log entry 3, unsafe). -/
def resetCh : Vector ChWord 8 := Vector.replicate 8 0

/-- Every `smp[k]` empty (R26, R33). -/
def emptySmp : Vector (Option Byte) 18 := Vector.replicate 18 none

/-- An instance with given parameters right after its first reset, with nothing presented at its ports (R33). The mark
`refused` is "false when the model starts". The last five fields are the model's own, and empty: DESIGN CHOICE, log entry
4, safe. -/
def State.start (cfg : Config) : State where
  buf := resetBuf
  cursor := 0
  ready := false
  ch := resetCh
  tLast := 0
  pphase := .idle
  smp := emptySmp
  refused := false
  cfg := cfg
  producerPort := []
  consumerPort := []
  schedule := []
  responses := []

/-- The machine right after reset (R33), with the normative baseline parameters (R6). -/
def State.reset : State := State.start Config.baseline

end Sys2Proof.Machine
end

