-- ==== Sys2Proof/Machine/Flags.lean ====
section
/-! DEFINITION. The block's one flag, `ready` (R23, R29), the sticky mark `refused` (R27), and the validator, whose
outcome is a response and not a flag (R105, R29). -/

namespace Sys2Proof.Machine

/-- R85: `ready` is set, again even if it is already true. -/
def setReady (s : State) : State := { s with ready := true }

/-- R102: `ready` is cleared, unconditionally. -/
def clearReady (s : State) : State := { s with ready := false }

/-- R10, R27: a refused command changes no state and sets the sticky mark. -/
def refuse (s : State) : State := { s with refused := true }

/-- R105: valid(b0, b19) = (b0 = 0xA8) and (b19 = 0x00). There is no checksum (R73). -/
def valid (b0 b19 : Byte) : Bool := b0 == Config.sync && b19 == Config.markValue

end Sys2Proof.Machine
end

