-- ==== Sys2Proof/Machine/Operands.lean ====
section
/-! DEFINITION. How operands and buffer bytes are assembled: the gap (R81, R82), the index an RX_BYTE stores at (R83),
the indices a POLL samples (R103), a channel's raw value (R106) and READ's index (R66). -/

namespace Sys2Proof.Machine

/-- R81: gap = (ts − t_last) mod 2^32, an unsigned 32-bit number (the spec's own decision D2, log entry 17, unsafe). -/
def gap (ts tLast : Timestamp) : Timestamp := ts - tLast

/-- R82: resync = (gap > 5000), strict. -/
def resync (ts tLast : Timestamp) : Bool := decide (Config.gapUs < (gap ts tLast).toNat)

/-- The index an RX_BYTE stores at: the cursor after R83. -/
def storeIndex (ts : Timestamp) (s : State) : Fin 21 := if resync ts s.tLast then 0 else s.cursor

/-- The buffer index that slot j of `smp` is for: K = 0, 3, 4, ..., 18, 19 in rising order (R20, R103). Index 20 is not
among them (R103, R71, against a clause of R165: DEDUCED, log entry 16, safe). -/
def slotIndex (j : Fin 18) : Fin 21 := if j.val = 0 then 0 else ⟨j.val + 2, by omega⟩

/-- The slot of buffer index 0, the sync byte (R71). -/
def syncSlot : Fin 18 := 0

/-- The slot of buffer index 19, the marker byte (R71). -/
def markSlot : Fin 18 := 17

/-- The slot of buffer index 3 + 2i, the high byte of channel i (R71). -/
def highSlot (i : Fin 8) : Fin 18 := ⟨1 + 2 * i.val, by omega⟩

/-- The slot of buffer index 4 + 2i, the low byte of channel i (R71). -/
def lowSlot (i : Fin 8) : Fin 18 := ⟨2 + 2 * i.val, by omega⟩

/-- R106: raw_i is the byte at 3 + 2i and then the byte at 4 + 2i, the lower index the more significant (R42). -/
def rawOf (v : Vector Byte 18) (i : Fin 8) : RawWord := v[highSlot i] ++ v[lowSlot i]

/-- The slots whose `smp[k]` is still empty, in rising order (R103). -/
def pendingSlots (s : State) : List (Fin 18) := (List.finRange 18).filter fun j => (s.smp[j]).isNone

/-- The bytes a POLL has gathered. It is used only when no slot is pending (R108), so the 0 of an empty slot is never
read (log entry 18, safe). -/
def gathered (s : State) : Vector Byte 18 := Vector.ofFn fun j => (s.smp[j]).getD 0

/-- The bytes at the sampled indices as the buffer stands (R109: "the buffer as it stood at the test of `ready`"). -/
def snapshot (s : State) : Vector Byte 18 := Vector.ofFn fun j => s.buf[slotIndex j]

/-- The channel READ's index selects, compared as an unsigned number with 8 (R66); none selects the sentinel (R131). -/
def channelOf (idx : Byte) : Option (Fin 8) :=
  if h : idx.toNat < 8 then some ⟨idx.toNat, h⟩ else none

end Sys2Proof.Machine
end

