-- ==== Sys2Proof/Machine/Scalar.lean ====
section
/-! DEFINITION. The fixed-point channel scalar (R107): the exact integer form, which the machine uses, and beside it the
definition on exact rationals and the two 20-bit realizations the rule gives. -/

namespace Sys2Proof.Machine

/-- R107, exact integer form: scale(raw) = trunc((5·raw − 12000) / 32), rounded toward zero (the spec's own decision D6,
log entry 17, unsafe). -/
def scaleInt (raw : RawWord) : Int := (5 * (raw.toNat : Int) - 12000).tdiv 32

/-- The s16 entry that scale(raw) is stored as (R24, R107). -/
def scale (raw : RawWord) : ChWord := BitVec.ofInt 16 (scaleInt raw)

/-- R8: `trunc(q)` rounds the rational q toward zero. -/
def truncRat (q : ℚ) : Int := if 0 ≤ q then ⌊q⌋ else ⌈q⌉

/-- R107 as the source states it: trunc(raw / 6.4 − 375) on exact rationals. -/
def scaleRat (raw : RawWord) : Int := truncRat ((raw.toNat : ℚ) / Config.scaleDiv - (Config.scaleOff : ℚ))

/-- R107: n = 5·raw − 12000 in a 20-bit signed intermediate (s20). -/
def scaleN (raw : RawWord) : BitVec 20 := 5 * raw.setWidth 20 - 12000

/-- R107, fixed-point realization: (n >= 0) ? (n >> 5) : -((-n) >> 5). -/
def scaleShift (raw : RawWord) : ChWord :=
  if 0 ≤ (scaleN raw).toInt then (scaleN raw >>> 5).setWidth 16 else (- ((- scaleN raw) >>> 5)).setWidth 16

/-- R107, equivalent form: (n + (n < 0 ? 31 : 0)) >>arith 5. -/
def scaleBias (raw : RawWord) : ChWord :=
  ((scaleN raw + if (scaleN raw).toInt < 0 then 31 else 0).sshiftRight 5).setWidth 16

end Sys2Proof.Machine
end

