-- ==== Sys2Proof/Machine/Ops.lean ====
section
/-! DEFINITION. The named operations over the two storage spaces BUF and CHT (R40, R41), which are all the memory the
block has (DEDUCED, log entry 20, safe), the responses (R10), the constant output (R30) and the reset (R160). The block
has no exception to take and none to return from (R140, R144), so there is no such operation here. -/

namespace Sys2Proof.Machine

/-- `MemRead(BUF, k, 1)` (R40): one byte, without side effect (R45). -/
def bufRead (k : Fin 21) (s : State) : Byte := s.buf[k]

/-- `MemWrite(BUF, k, 1, v)` (R40): one byte (R84). -/
def bufWrite (k : Fin 21) (v : Byte) (s : State) : State := { s with buf := s.buf.set k.val v k.isLt }

/-- `MemRead(CHT, i, 2)` (R40): one 16-bit entry, never torn (R44). -/
def chRead (i : Fin 8) (s : State) : ChWord := s.ch[i]

/-- The write of all 8 channel entries together (R41, R108). -/
def chCommit (vals : Vector ChWord 8) (s : State) : State := { s with ch := vals }

/-- `return v` (R10): v is put on the operation's response channel. -/
def respond (r : Response) (s : State) : State := { s with responses := r :: s.responses }

/-- The channel table decoded from sampled bytes: v_i = scale(raw_i) for i = 0..7 (R100, R106, R107). -/
def channelsOf (v : Vector Byte 18) : Vector ChWord 8 := Vector.ofFn fun i => scale (rawOf v i)

/-- The end of a POLL on the bytes it decodes (R100, R108): if the markers fail, `poll_new` = false and `ch` is
unchanged; if they pass, all 8 entries are replaced in one write and `poll_new` = true. -/
def decodeFrame (v : Vector Byte 18) (s : State) : State :=
  if valid v[syncSlot] v[markSlot] then respond (.pollNew true) (chCommit (channelsOf v) s)
  else respond (.pollNew false) s

/-- The constant output `channel_count` = 8, 4 bits wide (R30, R31). -/
def channelCount (_s : State) : BitVec 4 := BitVec.ofNat 4 Config.numCh

/-- R160: `rst` puts every architectural element at its reset value; `refused` is not changed (R27), and a POLL in
flight is abandoned with no response (R161). What the agents are still to present, the responses already delivered and
the parameters are not the block's state, and stay (DESIGN CHOICE, log entry 13, unsafe). -/
def applyReset (s : State) : State :=
  { s with
    buf := resetBuf
    cursor := 0
    ready := false
    ch := resetCh
    tLast := 0
    pphase := .idle
    smp := emptySmp }

end Sys2Proof.Machine
end

