-- ==== Sys2Proof/Machine/Poll.lean ====
section
/-! DEFINITION. The poll path: POLL (R100), in the baseline its steps TEST, CLEAR, SAMPLE and COMMIT (R101 to R104,
R108), and in the atomic variant one step (R109). -/

namespace Sys2Proof.Machine

/-- Step P1, TEST (R101). -/
def pollTest (s : State) : State :=
  if s.ready then { s with pphase := .tested } else respond (.pollNew false) s

/-- Step P2, CLEAR (R102): it does not read `ready` again. No sample is taken before it (R51; DEDUCED, log entry 19,
unsafe for an implementation that reads earlier). -/
def pollClear (s : State) : State := { clearReady s with pphase := .gather, smp := emptySmp }

/-- Step P3, SAMPLE(k) for k = `slotIndex j` (R103): the byte `buf[k]` holds at this instant (R104). -/
def pollSample (j : Fin 18) (s : State) : State :=
  { s with smp := s.smp.set j.val (some (bufRead (slotIndex j) s)) j.isLt }

/-- Step P4, COMMIT (R108). -/
def pollCommit (s : State) : State :=
  { decodeFrame (gathered s) s with pphase := .idle, smp := emptySmp }

/-- The whole POLL as one step (R100, R109). -/
def pollWhole (s : State) : State :=
  if s.ready then decodeFrame (snapshot s) (clearReady s) else respond (.pollNew false) s

/-- POLL, as the consumer issues it (R100): one whole step in the atomic variant (R109), the step TEST in the baseline
(R101), whose later steps the consumer's later turns take. It is issued only when `pphase` = IDLE (R48). -/
def execPoll (s : State) : Host.Outcome State Fault Refusal :=
  if s.pphase ≠ .idle then .refused .consumerBusy
  else if s.cfg.pollAtomic then .next (pollWhole s)
  else .next (pollTest s)

end Sys2Proof.Machine
end

