-- ==== Sys2Proof/Machine/Read.lean ====
section
/-! DEFINITION. The channel mux: READ (R130). -/

namespace Sys2Proof.Machine

/-- The value READ returns: `ch[idx]` (R132), or the sentinel 0 for idx ≥ 8 (R131). -/
def muxValue (idx : Byte) (s : State) : ChWord :=
  match channelOf idx with
  | some i => chRead i s
  | none => 0

/-- READ (R130): one indivisible step that writes no state of the block and returns a channel value. It is issued only
when `pphase` = IDLE (R48). -/
def execRead (idx : Byte) (s : State) : Host.Outcome State Fault Refusal :=
  if s.pphase ≠ .idle then .refused .consumerBusy
  else .next (respond (.rdValue (muxValue idx s)) s)

end Sys2Proof.Machine
end

