-- ==== Sys2Proof/Machine/Receive.lean ====
section
/-! DEFINITION. The receive path: the gap detector, the boundary detector and the buffer writer, which act inside the
single operation RX_BYTE (R80). -/

namespace Sys2Proof.Machine

/-- R83: on a resynchronization the cursor is set to 0 before the store. -/
def resyncCursor (ts : Timestamp) (s : State) : State := { s with cursor := storeIndex ts s }

/-- R84: the byte is stored at the cursor. -/
def storeByte (data : Byte) (s : State) : State := bufWrite s.cursor data s

/-- R85, R87: at index 20 `ready` is set and the cursor holds; below it the cursor advances by one. -/
def advanceCursor (s : State) : State :=
  if h : s.cursor = Config.lastIdx then setReady s
  else { s with cursor := ⟨s.cursor.val + 1, by
    have := s.cursor.isLt
    have : s.cursor.val ≠ 20 := fun e => h (Fin.ext e)
    omega⟩ }

/-- R86: `t_last` takes the timestamp of every byte. -/
def stampTime (ts : Timestamp) (s : State) : State := { s with tLast := ts }

/-- RX_BYTE (R80), one indivisible step (R47), enabled in every state (R89), with no response. -/
def execRxByte (data : Byte) (ts : Timestamp) (s : State) : Host.Outcome State Fault Refusal :=
  .next (stampTime ts (advanceCursor (storeByte data (resyncCursor ts s))))

end Sys2Proof.Machine
end

