-- ==== Sys2Proof/Machine/Dispatch.lean ====
section
/-! DEFINITION. The meaning of each operation, one arm per constructor of Instr. -/

namespace Sys2Proof.Machine

def exec (i : Instr) (s : State) : Host.Outcome State Fault Refusal :=
  match i with
  | .rxByte data ts => Sys2Proof.Machine.execRxByte data ts s
  | .poll => Sys2Proof.Machine.execPoll s
  | .read idx => Sys2Proof.Machine.execRead idx s

end Sys2Proof.Machine
end

