-- ==== Sys2Proof/Machine/Schedule.lean ====
section
/-! DEFINITION. Which indivisible step comes next (R12, R46 to R49) and what it does. The scheduler's choices are plain
data in the state, so a statement about every state is one about every interleaving. -/

namespace Sys2Proof.Machine

/-- What the next step is. -/
inductive Action where
  /-- No agent moves: no turn is left, or the agent whose turn it is has nothing to present (DESIGN CHOICE, log entry 1,
  safe). -/
  | none
  /-- `rst` is asserted (R160). -/
  | reset
  /-- A command word is taken from a port (R31). -/
  | issue (p : Port) (w : CmdWord)
  /-- Step P2 of the POLL in flight (R102). -/
  | clear
  /-- Step P3 of the POLL in flight, for k = `slotIndex j` (R103). -/
  | sample (j : Fin 18)
  /-- Step P4 of the POLL in flight (R108). -/
  | commit
  deriving DecidableEq, Repr

/-- The slot a SAMPLE takes: the one that `pick` chooses among those still pending (R103; DESIGN CHOICE,
log entry 10, safe: every pending slot has a pick); none when all are filled. -/
def pickSlot (pick : Nat) (s : State) : Option (Fin 18) :=
  (pendingSlots s)[pick % (pendingSlots s).length]?

/-- The consumer's next step. With no POLL in flight it issues its next command (R48); with one in flight it takes that
POLL's next step (R102, R103, R108), and its next command waits (DEDUCED, log entry 7, safe). -/
def consumerAction (pick : Nat) (s : State) : Action :=
  match s.pphase with
  | .idle => match s.consumerPort with
    | [] => .none
    | w :: _ => .issue .consumer w
  | .tested => .clear
  | .gather => match pickSlot pick s with
    | some j => .sample j
    | none => .commit

/-- The producer's next step: its next command, whatever `pphase` is (R89). -/
def producerAction (s : State) : Action :=
  match s.producerPort with
  | [] => .none
  | w :: _ => .issue .producer w

/-- The next step, by the scheduler's next choice. -/
def nextAction (s : State) : Action :=
  match s.schedule with
  | [] => .none
  | .producer :: _ => producerAction s
  | .consumer pick :: _ => consumerAction pick s
  | .rst :: _ => .reset

/-- The command word an action takes leaves its port. -/
def takeWord (a : Action) (s : State) : State :=
  match a with
  | .issue .producer _ => { s with producerPort := s.producerPort.tail }
  | .issue .consumer _ => { s with consumerPort := s.consumerPort.tail }
  | _ => s

/-- The scheduler's choice is used up. -/
def takeTurn (s : State) : State := { s with schedule := s.schedule.tail }

/-- A command word taken from a port: decoded (R67) and run, or refused (R68, R69). A refused command has
the effect R10 and R27 give it, and the machine goes on (DEDUCED, log entry 5, unsafe). -/
def issueCommand (p : Port) (w : CmdWord) (s : State) : Host.Outcome State Fault Refusal :=
  match decode p w with
  | .ok i => exec i s
  | .error _ => .next (refuse s)

/-- What an action does, once its turn and its word are taken. -/
def perform (a : Action) (s : State) : Host.Outcome State Fault Refusal :=
  match a with
  | .none => .next s
  | .reset => .next (applyReset s)
  | .issue p w => issueCommand p w s
  | .clear => .next (pollClear s)
  | .sample j => .next (pollSample j s)
  | .commit => .next (pollCommit s)

/-- One indivisible step. -/
def performNext (s : State) : Host.Outcome State Fault Refusal :=
  perform (nextAction s) (takeWord (nextAction s) (takeTurn s))

/-- The consumer has no POLL in flight, so that it can issue a command (R48). -/
def endPoll (s : State) : State := { s with pphase := .idle, smp := emptySmp }

/-- A word at the head of a port, and that port's agent at the head of the schedule. A consumer word is issued only when
no POLL is in flight (R48), so presenting one ends a POLL that is (DESIGN CHOICE, log entry 9, safe). -/
def presentAt (p : Port) (w : CmdWord) (s : State) : State :=
  match p with
  | .producer => { s with producerPort := w :: s.producerPort, schedule := .producer :: s.schedule }
  | .consumer => { endPoll s with consumerPort := w :: s.consumerPort, schedule := .consumer 0 :: s.schedule }

/-- A table word presented at the port its operation is legal on. A number of more than 42 bits is no command (R61), and
nothing is presented. -/
def presentTableWord (w : Nat) (s : State) : State :=
  if w < 2 ^ 42 then presentAt (portOfWord (BitVec.ofNat 42 w)) (BitVec.ofNat 42 w) s else s

end Sys2Proof.Machine
end

