-- ==== Sys2Proof/Machine/Step.lean ====
section
/-! DEFINITION. One step of the machine, and how the host places a command word so that the next step runs it. -/

namespace Sys2Proof.Machine

/-- One indivisible step of one agent, or a reset, by the scheduler's next choice (R46; DEDUCED, log entry 15, unsafe for
an implementation that breaks that order). -/
def step (s : State) : Host.Outcome State Fault Refusal := performNext s

/-- `s` with the command word `w` presented at the port its operation is legal on, and that port's agent next. The block
fetches nothing (R28): this stands for the agent presenting the word. -/
def State.withFetchWord (s : State) (_nbits w : Nat) : State := presentTableWord w s

end Sys2Proof.Machine
end

