-- ==== Sys2Proof/Machine/Assembler.lean ====
section
/-! DEFINITION. The textual lines of R74 and the pseudo-instructions of R75. They are the spec's own notation for
command sequences (decision D14) and have no effect on what the machine does. -/

namespace Sys2Proof.Machine

/-- A line of a command sequence (R74): an operation at a port (`P:` or `C:`), legal there or not, or `RESET`. -/
inductive Line where
  | command (p : Port) (i : Instr)
  | reset
  deriving DecidableEq, Repr

/-- The command word of a line and the port it is presented at; `RESET` is not a command word (R74). -/
def Line.word : Line → Option (Port × CmdWord)
  | .command p i => some (p, encode i)
  | .reset => none

/-- The timestamp of byte k of `RXFRAME t0, dt, ...`: t0 + k·dt, taken modulo 2^32 (R75). -/
def frameTime (t0 : Timestamp) (dt : Nat) (k : Nat) : Timestamp := t0 + BitVec.ofNat 32 (k * dt)

/-- `RXFRAME t0, dt, b0, ..., b20` (R75): 21 RX_BYTEs. -/
def rxFrame (t0 : Timestamp) (dt : Nat) (b : Vector Byte 21) : List Instr :=
  (List.finRange 21).map fun k => .rxByte b[k] (frameTime t0 dt k.val)

/-- The 21 bytes of `RXFRAME t0, dt, CH=(r0, ..., r7)` (R75): the markers, the payload big-endian, and 0x00 elsewhere. -/
def frameOfRaw (r : Vector RawWord 8) : Vector Byte 21 :=
  #v[0xA8, 0x00, 0x00,
    r[0].extractLsb' 8 8, r[0].extractLsb' 0 8, r[1].extractLsb' 8 8, r[1].extractLsb' 0 8,
    r[2].extractLsb' 8 8, r[2].extractLsb' 0 8, r[3].extractLsb' 8 8, r[3].extractLsb' 0 8,
    r[4].extractLsb' 8 8, r[4].extractLsb' 0 8, r[5].extractLsb' 8 8, r[5].extractLsb' 0 8,
    r[6].extractLsb' 8 8, r[6].extractLsb' 0 8, r[7].extractLsb' 8 8, r[7].extractLsb' 0 8,
    0x00, 0x00]

/-- `READALL` (R75): `READ 0` through `READ 7`. -/
def readAll : List Instr := (List.finRange 8).map fun i => .read (BitVec.ofNat 8 i.val)

end Sys2Proof.Machine
end

