-- ==== Sys2Proof/Safety.lean ====
section
/-! DEFINITION. The terms in which claims about the machine are made: the invariant of reachable states, the premise of
R27, runs, and the quantities and relations that the spec's derived rules speak of. -/

namespace Sys2Proof.Machine

/-- What holds of every state a run from reset reaches. (0 <= `cursor` <= 20, R34, is in the cursor's type.) -/
structure Inv (s : State) : Prop where
  /-- `smp` holds bytes only while a POLL samples (R26, R108). -/
  smp_empty : s.pphase ≠ .gather → s.smp = emptySmp
  /-- In the atomic variant no POLL is ever in flight (R109). -/
  atomic_idle : s.cfg.pollAtomic = true → s.pphase = .idle
  /-- Every channel entry is a value of the scalar's range (R24). -/
  ch_range : ∀ i : Fin 8, -375 ≤ (s.ch[i]).toInt ∧ (s.ch[i]).toInt ≤ 9864
  /-- So is every value READ has returned. -/
  rd_range : ∀ v : ChWord, Response.rdValue v ∈ s.responses → -375 ≤ v.toInt ∧ v.toInt ≤ 9864

/-- R27: "A claim about a run takes `refused` = false as a premise." -/
def Unrefused (s : State) : Prop := s.refused = false

/-- `n` steps. -/
def run (n : Nat) (s : State) : Host.Outcome State Fault Refusal := Sys2Proof.core.run n s

/-- A sequence of operations, each run to its next state, stopping at one that gives none. -/
def execAll : List Instr → State → Host.Outcome State Fault Refusal
  | [], s => .next s
  | i :: is, s => match exec i s with
    | .next t => execAll is t
    | .fault r => .fault r
    | .refused r => .refused r

/-- The RX_BYTEs of a sequence of received bytes with their timestamps. -/
def rxBytes (l : List (Byte × Timestamp)) : List Instr := l.map fun b => .rxByte b.1 b.2

/-- Every byte of the sequence arrives with a gap of at most 5000 µs after the one before it, the first after the byte
of timestamp `tLast` (R91). -/
def GapsWithin : Timestamp → List (Byte × Timestamp) → Prop
  | _, [] => True
  | tLast, b :: l => (gap b.2 tLast).toNat ≤ 5000 ∧ GapsWithin b.2 l

/-- The consumer's turns with given choices of what to sample (R103). -/
def consumerPicks (picks : List Nat) : List Turn := picks.map Turn.consumer

/-- The operation the next step runs, if it takes one. -/
def nextInstr (s : State) : Option Instr :=
  match nextAction s with
  | .issue p w => (decode p w).toOption
  | _ => none

/-- The consumer steps still to be taken by the POLL in flight (R148): P2, then the 18 samples, then P4. -/
def pollStepsLeft (s : State) : Nat :=
  match s.pphase with
  | .idle => 0
  | .tested => 20
  | .gather => (pendingSlots s).length + 1

/-- How many of the scheduler's choices are the consumer's. -/
def consumerTurns : List Turn → Nat
  | [] => 0
  | .consumer _ :: l => consumerTurns l + 1
  | .producer :: l => consumerTurns l
  | .rst :: l => consumerTurns l

/-- Ghost history for R35, no part of the state: which buffer indices an RX_BYTE has written since the last time
`cursor` was 0, after the next step, from which it was before it. -/
def writtenAfterStep (s : State) (written : Fin 21 → Bool) : Fin 21 → Bool :=
  match nextInstr s with
  | some (.rxByte _ ts) => fun k => k == storeIndex ts s || (storeIndex ts s != 0 && written k)
  | _ => if nextAction s = .reset then fun _ => false else written

/-- R35's invariant on that history: every index below the cursor has been written. -/
def WrittenBelowCursor (s : State) (written : Fin 21 → Bool) : Prop :=
  ∀ k : Fin 21, k.val < s.cursor.val → written k = true

/-- Two states that agree in everything but, perhaps, the frame buffer. -/
def SameButBuf (s t : State) : Prop := t = { s with buf := t.buf }

/-- Two states whose buffers differ only where no POLL will look before it is overwritten (R35): the buffers are equal,
or no frame is pending or being decoded and they agree below the cursor. -/
def BufDifferenceHidden (s t : State) : Prop :=
  SameButBuf s t ∧
    (s.buf = t.buf ∨ (s.ready = false ∧ s.pphase = .idle ∧ ∀ k : Fin 21, k.val < s.cursor.val → s.buf[k] = t.buf[k]))

/-- Two states whose buffers differ at most at the indices that are never sampled, 1, 2 and 20 (R71, R103). -/
def SameOnSampledBytes (s t : State) : Prop :=
  SameButBuf s t ∧ ∀ j : Fin 18, s.buf[slotIndex j] = t.buf[slotIndex j]

/-- The state of the atomic variant, as one of the baseline with a schedule of its own (R109). -/
def asBaseline (s : State) (schedule : List Turn) : State :=
  { s with cfg := Config.baseline, schedule := schedule }

end Sys2Proof.Machine
end

