-- ==== Sys2Proof/Certificates/Slice0/Obligations.lean ====
section
/-! DEFINITION. The statements about the model, for the provers. Each cites the rule of spec/ it formalises. -/

open Sys2Proof Sys2Proof.Machine

/-! ## Encoding -/

/-- R62 to R67: an operation legal on the port is decoded from its own word, with every operand at every value; on the
other port the same word is refused for its port (R69). -/
def Obligations.EncodeDecodeRoundTrip : Prop :=
  ∀ (p : Port) (i : Instr),
    (i.wellFormed p = true → decode p (encode i) = .ok i) ∧
    (i.wellFormed p = false → decode p (encode i) = .error .wrongPort)

/-- Each word has one meaning: a word that decodes is the encoding of what it decodes to, and that is legal on the port
it arrived at. -/
def Obligations.DecodedWordIsItsEncoding : Prop :=
  ∀ (p : Port) (w : CmdWord) (i : Instr), decode p w = .ok i → encode i = w ∧ i.wellFormed p = true

/-- R67: the decoder is total over all 2^42 words at either port and decides in the rule's order. -/
def Obligations.DecoderFollowsOrder : Prop :=
  ∀ (p : Port) (w : CmdWord) (op : Nat), op = w.toNat / 2 ^ 40 →
    (op = 3 → decode p w = .error .reservedOp) ∧
    (op = 0 → p = .consumer → decode p w = .error .wrongPort) ∧
    (op = 1 ∨ op = 2 → p = .producer → decode p w = .error .wrongPort) ∧
    (op = 1 → p = .consumer → w.toNat % 2 ^ 40 ≠ 0 → decode p w = .error .mustBeZero) ∧
    (op = 2 → p = .consumer → w.toNat % 2 ^ 32 ≠ 0 → decode p w = .error .mustBeZero) ∧
    (op = 0 → p = .producer →
      decode p w = .ok (.rxByte (BitVec.ofNat 8 (w.toNat / 2 ^ 32)) (BitVec.ofNat 32 w.toNat))) ∧
    (op = 1 → p = .consumer → w.toNat % 2 ^ 40 = 0 → decode p w = .ok .poll) ∧
    (op = 2 → p = .consumer → w.toNat % 2 ^ 32 = 0 → decode p w = .ok (.read (BitVec.ofNat 8 (w.toNat / 2 ^ 32)))) ∧
    op ≤ 3

/-- R63, R64, R65: the masks and matches of the three encodings, the fields, and that each field takes every value; READ's
values 8 to 255 are legal and select the sentinel result. -/
def Obligations.EncodingsMatchMasks : Prop :=
  (∀ w : CmdWord,
    (w &&& 0x30000000000#42 = 0x00000000000#42 ↔
      decode .producer w = .ok (.rxByte (w.extractLsb' 32 8) (w.extractLsb' 0 32))) ∧
    (w &&& 0x3FFFFFFFFFF#42 = 0x10000000000#42 ↔ decode .consumer w = .ok .poll) ∧
    (w &&& 0x300FFFFFFFF#42 = 0x20000000000#42 ↔ decode .consumer w = .ok (.read (w.extractLsb' 32 8)))) ∧
  (∀ (data : Byte) (ts : Timestamp), ∃ w, decode .producer w = .ok (.rxByte data ts)) ∧
  (∀ idx : Byte, ∃ w, decode .consumer w = .ok (.read idx)) ∧
  (∀ (idx : Byte) (s : State), 8 ≤ idx.toNat → s.pphase = .idle →
    exec (.read idx) s = .next { s with responses := .rdValue 0 :: s.responses })

/-- Words written out from R61 to R65 (`95_test_vectors.md` section 2.1) decode to the operations they stand for, or are
refused. -/
def Obligations.SpecWordsDecode : Prop :=
  decode .producer 0x0A800002710#42 = .ok (.rxByte 0xA8 10000) ∧
  decode .producer 0x0FFFFFFFFFF#42 = .ok (.rxByte 0xFF 4294967295) ∧
  decode .consumer 0x10000000000#42 = .ok .poll ∧
  decode .consumer 0x20700000000#42 = .ok (.read 7) ∧
  decode .consumer 0x2FF00000000#42 = .ok (.read 255) ∧
  decode .consumer 0x10100000000#42 = .error .mustBeZero ∧
  decode .consumer 0x20000000001#42 = .error .mustBeZero ∧
  decode .producer 0x3FFFFFFFFFF#42 = .error .reservedOp ∧
  decode .consumer 0x0A800002710#42 = .error .wrongPort ∧
  decode .producer 0x20000000000#42 = .error .wrongPort

/-! ## Steps -/

/-- R31, R46: a step whose turn is an agent's, with a word that decodes at that agent's port, is that operation run on the
state less the turn and the word. The consumer issues one only with no POLL in flight (R48). -/
def Obligations.StepRunsDecodedCommand : Prop :=
  ∀ (s : State) (w : CmdWord) (ws : List CmdWord) (pick : Nat) (rest : List Turn) (i : Instr),
    (s.schedule = .producer :: rest → s.producerPort = w :: ws → decode .producer w = .ok i →
      step s = exec i { s with schedule := rest, producerPort := ws }) ∧
    (s.schedule = .consumer pick :: rest → s.pphase = .idle → s.consumerPort = w :: ws → decode .consumer w = .ok i →
      step s = exec i { s with schedule := rest, consumerPort := ws })

/-- A table word that decodes is run by the very next step after it is presented; presenting a consumer word first ends
a POLL in flight (the model's choice, log entry 9). -/
def Obligations.PresentedWordIsRunNext : Prop :=
  ∀ (s : State) (nbits w : Nat) (i : Instr), decodeTableWord nbits w = some i →
    step (s.withFetchWord nbits w) =
      exec i (if i.port = .producer then s else { s with pphase := .idle, smp := emptySmp })

/-- R68, R69: exactly the reserved words, the words with a must-be-zero field not zero and the words at the wrong port are
refused; a refused command changes no state of the block, gets no response and sets `refused`. -/
def Obligations.RefusedCommandOnlySetsMark : Prop :=
  ∀ (p : Port) (w : CmdWord),
    ((∃ r, decode p w = .error r) ↔
      w.toNat / 2 ^ 40 = 3 ∨
      (w.toNat / 2 ^ 40 = 1 ∧ w.toNat % 2 ^ 40 ≠ 0) ∨ (w.toNat / 2 ^ 40 = 2 ∧ w.toNat % 2 ^ 32 ≠ 0) ∨
      (w.toNat / 2 ^ 40 = 0 ∧ p = .consumer) ∨ ((w.toNat / 2 ^ 40 = 1 ∨ w.toNat / 2 ^ 40 = 2) ∧ p = .producer)) ∧
    ∀ (s : State) (ws : List CmdWord) (pick : Nat) (rest : List Turn) (r : RefuseReason), decode p w = .error r →
      (p = .producer → s.schedule = .producer :: rest → s.producerPort = w :: ws →
        step s = .next { s with schedule := rest, producerPort := ws, refused := true }) ∧
      (p = .consumer → s.schedule = .consumer pick :: rest → s.pphase = .idle → s.consumerPort = w :: ws →
        step s = .next { s with schedule := rest, consumerPort := ws, refused := true })

/-- R27: `refused` is set when a command is refused, by nothing else, and is never cleared, including by reset. -/
def Obligations.RefusedMarkIsSticky : Prop :=
  ∀ s t : State, step s = .next t →
    (t.refused = true ↔ s.refused = true ∨ ∃ p w r, nextAction s = .issue p w ∧ decode p w = .error r)

/-- R140, R148: no state stops the machine; every step of every state answers a next state. -/
def Obligations.EveryStepHasNextState : Prop :=
  ∀ s : State, ∃ t : State, step s = .next t

/-- R20, R30: no step changes the instance's parameters, and `channel_count` is 8 in every state. -/
def Obligations.ParametersNeverChange : Prop :=
  ∀ s t : State, step s = .next t → t.cfg = s.cfg ∧ channelCount t = 8#4

/-- R32: the producer writes only `buf`, `cursor` and `t_last` and sets `ready`; the consumer writes only `ch`, `pphase`
and `smp` and clears `ready`. -/
def Obligations.AgentsWriteOnlyTheirOwnState : Prop :=
  ∀ (s t : State) (pick : Nat) (rest : List Turn), step s = .next t →
    (s.schedule = .producer :: rest →
      t.ch = s.ch ∧ t.pphase = s.pphase ∧ t.smp = s.smp ∧ (s.ready = true → t.ready = true)) ∧
    (s.schedule = .consumer pick :: rest →
      t.buf = s.buf ∧ t.cursor = s.cursor ∧ t.tLast = s.tLast ∧ (t.ready = true → s.ready = true))

/-! ## Receive path -/

/-- R81, R82: the gap is the difference of the timestamps modulo 2^32, so the true elapsed time below 2^32 µs, across a
wrap too; a gap of exactly 5000 is not a resynchronization. -/
def Obligations.GapIsModularElapsedTime : Prop :=
  (∀ ts tLast : Timestamp,
    (gap ts tLast).toNat = (ts.toNat + 2 ^ 32 - tLast.toNat) % 2 ^ 32 ∧
    (resync ts tLast = true ↔ 5000 < (ts.toNat + 2 ^ 32 - tLast.toNat) % 2 ^ 32)) ∧
  ∀ t0 elapsed : Nat, elapsed < 2 ^ 32 →
    (gap (BitVec.ofNat 32 (t0 + elapsed)) (BitVec.ofNat 32 t0)).toNat = elapsed

/-- R80: RX_BYTE completes in every state, with the whole next state: the byte stored at index c (0 after a gap above
5000), the cursor advanced or held at 20, `ready` set at 20 and never cleared, `t_last` replaced, no response, nothing
else changed. The last clause is the rule's example. -/
def Obligations.RxByteResult : Prop :=
  (∀ (data : Byte) (ts : Timestamp) (s : State) (c : Fin 21),
    c = (if 5000 < (ts.toNat + 2 ^ 32 - s.tLast.toNat) % 2 ^ 32 then 0 else s.cursor) →
    ∃ t : State, exec (.rxByte data ts) s = .next t ∧
      t.cursor.val = (if c.val = 20 then 20 else c.val + 1) ∧
      t = { s with
        buf := s.buf.set c.val data c.isLt
        cursor := t.cursor
        ready := if c.val = 20 then true else s.ready
        tLast := ts }) ∧
  ∀ s : State, s.tLast = 1000 → s.cursor = 20 → s.ready = false →
    exec (.rxByte 0x00 7000) s = .next { s with buf := s.buf.set 0 0x00, cursor := 1, tLast := 7000 }

/-- R83, R84: a gap above 5000 makes the byte frame byte 0, at any cursor, without clearing `ready`; exactly one buffer
byte is written, at the cursor after that, and the other 20 keep their values. -/
def Obligations.RxByteFrame : Prop :=
  ∀ (data : Byte) (ts : Timestamp) (s t : State), exec (.rxByte data ts) s = .next t →
    t.buf[storeIndex ts s] = data ∧
    (∀ k : Fin 21, k ≠ storeIndex ts s → t.buf[k] = s.buf[k]) ∧
    (5000 < (gap ts s.tLast).toNat → storeIndex ts s = 0 ∧ t.cursor = 1 ∧ t.ready = s.ready) ∧
    ((gap ts s.tLast).toNat ≤ 5000 → storeIndex ts s = s.cursor) ∧
    t.ch = s.ch ∧ t.pphase = s.pphase ∧ t.smp = s.smp ∧ t.refused = s.refused ∧ t.responses = s.responses

/-- R85, R86, R87: a store at index 20 sets `ready`, again if it is set already, and holds the cursor at 20; a store below
it advances the cursor by one, to at most 20, and leaves `ready`; the timestamp is always kept. -/
def Obligations.RxByteFrameFull : Prop :=
  ∀ (data : Byte) (ts : Timestamp) (s : State), ∃ t : State, exec (.rxByte data ts) s = .next t ∧ t.tLast = ts ∧
    (storeIndex ts s = 20 → t.ready = true ∧ t.cursor = 20) ∧
    (storeIndex ts s ≠ 20 → t.ready = s.ready ∧ t.cursor.val = (storeIndex ts s).val + 1 ∧ t.cursor.val ≤ 20)

/-- R89: RX_BYTE is enabled in every state, whatever `pphase` is and whether or not a frame is pending, and the byte
lands. -/
def Obligations.ReceiveIsNeverHeld : Prop :=
  ∀ (s : State) (data : Byte) (ts : Timestamp) (ws : List CmdWord) (rest : List Turn),
    s.schedule = .producer :: rest → s.producerPort = encode (.rxByte data ts) :: ws →
    nextInstr s = some (.rxByte data ts) ∧ ∃ t : State, step s = .next t ∧ t.buf[storeIndex ts s] = data ∧
      t.producerPort = ws

/-- R91: over RX_BYTEs whose gaps are all at most 5000, from `cursor` = c, the cursor takes the values c, c+1, ... up to 20
and stays there, and `ready` becomes true at the first store at index 20. -/
def Obligations.CursorRisesToTwentyWithoutGaps : Prop :=
  ∀ (l : List (Byte × Timestamp)) (s : State), GapsWithin s.tLast l →
    ∃ t : State, execAll (rxBytes l) s = .next t ∧
      t.cursor.val = min (s.cursor.val + l.length) 20 ∧
      t.ready = (s.ready || decide (21 ≤ s.cursor.val + l.length))

/-- R71, R83 to R87: 21 bytes, the first at cursor 0 or after a gap above 5000 and the others without one, fill the
buffer in order and raise `ready`, from any state; nothing else changes. -/
def Obligations.AlignedFrameIsReceived : Prop :=
  ∀ (s : State) (b : Byte × Timestamp) (l : List (Byte × Timestamp)), l.length = 20 →
    (s.cursor = 0 ∨ 5000 < (gap b.2 s.tLast).toNat) → GapsWithin b.2 l →
    ∃ t : State, execAll (rxBytes (b :: l)) s = .next t ∧
      (∀ k : Fin 21, some t.buf[k] = ((b :: l).map Prod.fst)[k.val]?) ∧
      t = { s with buf := t.buf, cursor := 20, ready := true, tLast := ((b :: l).map Prod.snd).getLastD 0 }

/-- R35: whenever `ready` becomes true, every index 0 to 20 has been written by an RX_BYTE since the last time `cursor`
was 0. The ghost history holds at any state with `cursor` = 0, every step keeps it, and it gives the claim. -/
def Obligations.ReadyMeansWholeFrameWritten : Prop :=
  (∀ s : State, s.cursor = 0 → WrittenBelowCursor s fun _ => false) ∧
  ∀ (s t : State) (written : Fin 21 → Bool), WrittenBelowCursor s written → step s = .next t →
    WrittenBelowCursor t (writtenAfterStep s written) ∧
    (s.ready = false → t.ready = true → ∀ k : Fin 21, writtenAfterStep s written k = true)

/-- R35: so a buffer difference above the cursor with no frame pending, such as another reset value of `buf`, is never
decoded and never observed: the relation is kept by every step and gives equal responses. -/
def Obligations.HiddenBufferDifferenceStaysHidden : Prop :=
  (∀ (s : State) (buf : Vector Byte 21), s.cursor = 0 → s.ready = false → s.pphase = .idle →
    BufDifferenceHidden s { s with buf := buf }) ∧
  ∀ s t s' : State, BufDifferenceHidden s t → step s = .next s' →
    ∃ t' : State, step t = .next t' ∧ BufDifferenceHidden s' t' ∧ t'.responses = s'.responses ∧ t'.ch = s'.ch

/-- R71: bytes 1, 2 and 20 are never read: states that differ only there answer alike, whatever happens next. -/
def Obligations.UnsampledBytesHaveNoEffect : Prop :=
  (∀ k : Fin 21, (∃ j, slotIndex j = k) ↔ k ≠ 1 ∧ k ≠ 2 ∧ k ≠ 20) ∧
  ∀ s t s' : State, SameOnSampledBytes s t → step s = .next s' →
    ∃ t' : State, step t = .next t' ∧ SameOnSampledBytes s' t' ∧ t'.responses = s'.responses ∧ t'.ch = s'.ch

/-- R36: while `cursor` = 0, as after reset, the value of `t_last` changes no observable result: the states are equal
again after the next RX_BYTE, and until then they differ in `t_last` alone and `cursor` stays 0. -/
def Obligations.ResetTimestampIsUnobservable : Prop :=
  ∀ (s s' : State) (x : Timestamp), s.cursor = 0 → step s = .next s' →
    ∃ t' : State, step { s with tLast := x } = .next t' ∧
      (t' = s' ∨ (s'.cursor = 0 ∧ t' = { s' with tLast := x }))

/-! ## Poll path -/

/-- R105: the validator is the two-marker check and nothing else. -/
def Obligations.ValidatorChecksTwoMarkers : Prop :=
  ∀ b0 b19 : Byte, valid b0 b19 = true ↔ b0 = 0xA8 ∧ b19 = 0x00

/-- R106: raw_i = s[3+2i]·256 + s[4+2i], with the sampled bytes at the buffer indices R71 gives. -/
def Obligations.RawValueIsBigEndian : Prop :=
  (∀ (v : Vector Byte 18) (i : Fin 8),
    (rawOf v i).toNat = v[highSlot i].toNat * 256 + v[lowSlot i].toNat) ∧
  (∀ i : Fin 8, (slotIndex (highSlot i)).val = 3 + 2 * i.val ∧ (slotIndex (lowSlot i)).val = 4 + 2 * i.val) ∧
  (slotIndex syncSlot).val = 0 ∧ (slotIndex markSlot).val = 19

/-- R107: the scalar is trunc(raw / 6.4 − 375) on exact rationals; its exact integer form and both 20-bit realizations
agree with it; its range, its monotonicity, and where and how often truncation differs from floor. -/
def Obligations.ScalarIsExact : Prop :=
  (∀ raw : RawWord,
    (scale raw).toInt = truncRat ((raw.toNat : ℚ) / (64 / 10) - 375) ∧
    (scale raw).toInt = truncRat ((5 * (raw.toNat : ℚ) - 12000) / 32) ∧
    (scaleN raw).toInt = 5 * (raw.toNat : Int) - 12000 ∧
    -12000 ≤ (scaleN raw).toInt ∧ (scaleN raw).toInt ≤ 315675 ∧
    scaleShift raw = scale raw ∧ scaleBias raw = scale raw ∧
    -375 ≤ (scale raw).toInt ∧ (scale raw).toInt ≤ 9864 ∧
    ((scale raw).toInt ≠ ⌊(raw.toNat : ℚ) / (64 / 10) - 375⌋ ↔ raw.toNat < 2400 ∧ ¬ 32 ∣ 5 * raw.toNat)) ∧
  (scale 0).toInt = -375 ∧ (scale 65535).toInt = 9864 ∧
  (∀ a b : RawWord, a.toNat ≤ b.toNat → (scale a).toInt ≤ (scale b).toInt) ∧
  ((List.range 65536).filter fun n => decide (n < 2400 ∧ ¬ 32 ∣ 5 * n)).length = 2325

/-- R133: exactly the raw values from 2394 to 2406 decode to 0. -/
def Obligations.RawValuesThatDecodeToZero : Prop :=
  ∀ raw : RawWord, scale raw = 0 ↔ 2394 ≤ raw.toNat ∧ raw.toNat ≤ 2406

/-- R101: the step TEST of a baseline POLL. -/
def Obligations.PollTestStep : Prop :=
  ∀ s : State, s.cfg.pollAtomic = false → s.pphase = .idle →
    (s.ready = false → exec .poll s = .next { s with responses := .pollNew false :: s.responses }) ∧
    (s.ready = true → exec .poll s = .next { s with pphase := .tested })

/-- R102: the step CLEAR is unconditional: it clears `ready` whatever it holds, so a setting by an RX_BYTE between TEST and
CLEAR is lost. -/
def Obligations.PollClearStep : Prop :=
  ∀ (s : State) (pick : Nat) (rest : List Turn), s.schedule = .consumer pick :: rest → s.pphase = .tested →
    step s = .next { s with schedule := rest, ready := false, pphase := .gather, smp := Vector.replicate 18 none }

/-- R103: in GATHER the scheduler can take any index still to be sampled, and takes one of them and no other step while
there is one; the indices are 0 and 3 to 19, so 1, 2 and 20 are never sampled. -/
def Obligations.SampleOrderIsFree : Prop :=
  (∀ (s : State) (rest : List Turn) (j : Fin 18), s.pphase = .gather → s.smp[j] = none →
    ∃ pick : Nat, step { s with schedule := .consumer pick :: rest } =
      .next { s with schedule := rest, smp := s.smp.set j.val (some s.buf[slotIndex j]) j.isLt }) ∧
  (∀ (s : State) (pick : Nat) (rest : List Turn), s.schedule = .consumer pick :: rest → s.pphase = .gather →
    (∃ j : Fin 18, s.smp[j] = none) →
    ∃ j : Fin 18, s.smp[j] = none ∧
      step s = .next { s with schedule := rest, smp := s.smp.set j.val (some s.buf[slotIndex j]) j.isLt }) ∧
  (∀ k : Fin 21, (∃ j : Fin 18, slotIndex j = k) ↔ k = 0 ∨ (3 ≤ k.val ∧ k.val ≤ 19)) ∧
  ∀ j j' : Fin 18, slotIndex j = slotIndex j' → j = j'

/-- R104: a byte that an RX_BYTE stores after CLEAR and before its sample is the byte sampled, and samples already taken
keep the bytes they took. So one POLL can decode a mixture: with every other sample already taken from an older burst,
the commit decodes those together with the late byte. -/
def Obligations.RacedSampleSeesLateStore : Prop :=
  ∀ (s : State) (data : Byte) (ts : Timestamp) (ws : List CmdWord) (rest : List Turn) (j : Fin 18),
    s.pphase = .gather → s.smp[j] = none → storeIndex ts s = slotIndex j →
    s.producerPort = encode (.rxByte data ts) :: ws →
    ∃ (pick : Nat) (t : State),
      run 2 { s with schedule := .producer :: .consumer pick :: rest } = .next t ∧
      t.smp = s.smp.set j.val (some data) j.isLt ∧
      ∀ (v : Vector Byte 18) (pick' : Nat) (rest' : List Turn), rest = .consumer pick' :: rest' →
        v[j] = data → (∀ k : Fin 18, k ≠ j → s.smp[k] = some v[k]) → v[0] = 0xA8 → v[17] = 0x00 →
        ∃ u : State, step t = .next u ∧ u.responses = .pollNew true :: s.responses ∧
          ∀ i : Fin 8, u.ch[i] = scale (v[1 + 2 * i.val] ++ v[2 + 2 * i.val])

/-- R108: the step COMMIT, when all 18 samples are filled. -/
def Obligations.PollCommitStep : Prop :=
  ∀ (s : State) (pick : Nat) (rest : List Turn) (v : Vector Byte 18), s.schedule = .consumer pick :: rest →
    s.pphase = .gather → (∀ j : Fin 18, s.smp[j] = some v[j]) →
    step s = .next
      (if v[0] = 0xA8 ∧ v[17] = 0x00 then
        { s with
          schedule := rest, pphase := .idle, smp := Vector.replicate 18 none
          ch := Vector.ofFn fun i : Fin 8 => scale (v[1 + 2 * i.val] ++ v[2 + 2 * i.val])
          responses := .pollNew true :: s.responses }
      else
        { s with
          schedule := rest, pphase := .idle, smp := Vector.replicate 18 none
          responses := .pollNew false :: s.responses })

/-- R100 as one step (R109): what a POLL of the atomic variant does, whole. -/
def Obligations.AtomicPollResult : Prop :=
  ∀ s : State, s.cfg.pollAtomic = true → s.pphase = .idle →
    exec .poll s = .next
      (if s.ready = false then { s with responses := .pollNew false :: s.responses }
      else if s.buf[0] = 0xA8 ∧ s.buf[19] = 0x00 then
        { s with
          ready := false
          ch := Vector.ofFn fun i : Fin 8 => scale (s.buf[3 + 2 * i.val] ++ s.buf[4 + 2 * i.val])
          responses := .pollNew true :: s.responses }
      else { s with ready := false, responses := .pollNew false :: s.responses })

/-- R100, R101 to R108: a baseline POLL that no RX_BYTE interrupts takes 21 consumer steps, in any order of its samples, and
does what the rule's one function does. -/
def Obligations.UninterruptedPollDecodesBuffer : Prop :=
  ∀ (s : State) (picks : List Nat) (cmds : List CmdWord) (rest : List Turn), s.cfg.pollAtomic = false →
    s.pphase = .idle → s.ready = true → s.consumerPort = encode .poll :: cmds → picks.length = 21 →
    s.schedule = consumerPicks picks ++ rest →
    run 21 s = .next
      (if s.buf[0] = 0xA8 ∧ s.buf[19] = 0x00 then
        { s with
          consumerPort := cmds, schedule := rest, ready := false, smp := emptySmp
          ch := Vector.ofFn fun i : Fin 8 => scale (s.buf[3 + 2 * i.val] ++ s.buf[4 + 2 * i.val])
          responses := .pollNew true :: s.responses }
      else
        { s with
          consumerPort := cmds, schedule := rest, ready := false, smp := emptySmp
          responses := .pollNew false :: s.responses })

/-- R109: every step of the atomic variant is a block of consecutive turns of the baseline that does the same; if the
block is of more than one turn, all are the consumer's, so no RX_BYTE falls inside the POLL. -/
def Obligations.AtomicStepIsBaselineBlock : Prop :=
  ∀ (s t : State) (turn : Turn) (rest : List Turn), s.cfg.pollAtomic = true → s.pphase = .idle → s.smp = emptySmp →
    s.schedule = turn :: rest → step s = .next t →
    ∃ block : List Turn, (block = [turn] ∨ ∃ pick picks, turn = .consumer pick ∧ block = consumerPicks (pick :: picks)) ∧
      ∀ more : List Turn, run block.length (asBaseline s (block ++ more)) = .next (asBaseline t more)

/-- R109: every run of the atomic variant is also a run of the baseline, on a schedule in which the producer's and reset's
turns are the same and in the same order. -/
def Obligations.AtomicRunIsBaselineRun : Prop :=
  ∀ (n : Nat) (s t : State), s.cfg.pollAtomic = true → s.pphase = .idle → s.smp = emptySmp → run n s = .next t →
    ∃ blocks : List Turn,
      (blocks.filter fun u => u == .producer || u == .rst) =
        ((s.schedule.take n).filter fun u => u == .producer || u == .rst) ∧
      ∀ more : List Turn, run blocks.length (asBaseline s (blocks ++ more)) = .next (asBaseline t more)

/-- R110: a POLL that returns false never writes `ch`; it returns false when `ready` was false at the test or when
validation failed at the commit. -/
def Obligations.FailedPollKeepsChannels : Prop :=
  ∀ s t : State, step s = .next t → t.responses = .pollNew false :: s.responses →
    t.ch = s.ch ∧
    ((nextInstr s = some .poll ∧ s.ready = false) ∨
     (nextInstr s = some .poll ∧ s.cfg.pollAtomic = true ∧ ¬ (s.buf[0] = 0xA8 ∧ s.buf[19] = 0x00)) ∨
     (nextAction s = .commit ∧ ¬ (s.smp[0] = some 0xA8 ∧ s.smp[17] = some 0x00)))

/-- R37, R24: the channel table changes only by a reset or by a POLL that answers true, and that POLL replaces all 8
entries together by scalar values of one set of sampled bytes with the right markers. -/
def Obligations.ChannelsReplacedOnlyAsFullSet : Prop :=
  ∀ s t : State, step s = .next t →
    (t.responses = .pollNew true :: s.responses →
      ∃ v : Vector Byte 18, v[0] = 0xA8 ∧ v[17] = 0x00 ∧
        ((∀ j : Fin 18, s.smp[j] = some v[j]) ∨ (∀ j : Fin 18, s.buf[slotIndex j] = v[j])) ∧
        ∀ i : Fin 8, t.ch[i] = scale (v[highSlot i] ++ v[lowSlot i])) ∧
    (t.ch ≠ s.ch → nextAction s = .reset ∨ t.responses = .pollNew true :: s.responses)

/-- R148: a POLL in flight ends after exactly the consumer steps it has left, at most 20 after its TEST, whatever RX_BYTEs
fall between them. -/
def Obligations.PollEndsInBoundedSteps : Prop :=
  (∀ s : State, pollStepsLeft s = 0 ↔ s.pphase = .idle) ∧
  (∀ s : State, pollStepsLeft s ≤ 20) ∧
  ∀ (s : State) (turns rest : List Turn), s.schedule = turns ++ rest → (∀ u ∈ turns, u ≠ .rst) →
    consumerTurns turns = pollStepsLeft s →
    ∃ t : State, run turns.length s = .next t ∧ t.pphase = .idle ∧ t.consumerPort = s.consumerPort

/-- R113: of two POLLs in a row with no RX_BYTE between, the second returns false, so at most one returns true. -/
def Obligations.SecondPollReturnsFalse : Prop :=
  ∀ (s : State) (picks : List Nat) (cmds : List CmdWord) (rest : List Turn), s.pphase = .idle →
    s.consumerPort = encode .poll :: encode .poll :: cmds →
    picks.length = (if s.cfg.pollAtomic = true ∨ s.ready = false then 2 else 22) →
    s.schedule = consumerPicks picks ++ rest →
    ∃ (t : State) (b : Bool), run picks.length s = .next t ∧
      t.responses = .pollNew false :: .pollNew b :: s.responses ∧
      t.ready = false ∧ t.pphase = .idle ∧ t.consumerPort = cmds

/-- R165: a store at index 20 between TEST and CLEAR loses its notification; after CLEAR it leaves `ready` set. -/
def Obligations.NotificationLostBeforeClear : Prop :=
  ∀ (s : State) (data : Byte) (ts : Timestamp) (ws : List CmdWord) (pick : Nat) (rest : List Turn),
    s.pphase = .tested → storeIndex ts s = 20 → s.producerPort = encode (.rxByte data ts) :: ws →
    (∃ t : State, run 2 { s with schedule := .producer :: .consumer pick :: rest } = .next t ∧
      t.ready = false ∧ t.buf[20] = data ∧ t.pphase = .gather) ∧
    (∃ t : State, run 2 { s with schedule := .consumer pick :: .producer :: rest } = .next t ∧
      t.ready = true ∧ t.buf[20] = data ∧ t.pphase = .gather)

/-- R166 (b): after a gap a pending frame stays pending while its byte 0 is overwritten, and a POLL taken then decodes the
new byte 0 with the old payload, in the atomic variant too. -/
def Obligations.MixedFrameDecodedAfterGap : Prop :=
  ∀ (s : State) (data : Byte) (ts : Timestamp), s.cfg.pollAtomic = true → s.pphase = .idle → s.ready = true →
    5000 < (gap ts s.tLast).toNat →
    ∃ t u : State, exec (.rxByte data ts) s = .next t ∧ t.ready = true ∧ exec .poll t = .next u ∧ u.ready = false ∧
      (data = 0xA8 ∧ s.buf[19] = 0x00 →
        u.responses = .pollNew true :: s.responses ∧
        ∀ i : Fin 8, u.ch[i] = scale (s.buf[3 + 2 * i.val] ++ s.buf[4 + 2 * i.val])) ∧
      (¬ (data = 0xA8 ∧ s.buf[19] = 0x00) → u.responses = .pollNew false :: s.responses ∧ u.ch = s.ch)

/-! ## Channel mux -/

/-- R130: READ returns `ch[idx]`, or 0 for idx ≥ 8, and writes no state. -/
def Obligations.ReadResult : Prop :=
  ∀ (s : State) (idx : Byte), s.pphase = .idle →
    exec (.read idx) s = .next { s with
      responses := .rdValue (if h : idx.toNat < 8 then s.ch[idx.toNat] else 0) :: s.responses }

/-- R131: for every idx ≥ 8 READ returns 0 whatever the state. -/
def Obligations.ReadSentinel : Prop :=
  ∀ (s : State) (idx : Byte), 8 ≤ idx.toNat → s.pphase = .idle →
    ∃ t : State, exec (.read idx) s = .next t ∧ t.responses = .rdValue 0 :: s.responses

/-- R133, R45: RX_BYTEs and READs do not affect what a READ returns. -/
def Obligations.ReadUnaffectedByReceiveAndRead : Prop :=
  ∀ (l : List Instr) (s t : State) (idx : Byte), (∀ i ∈ l, i ≠ .poll) → s.pphase = .idle → execAll l s = .next t →
    ∃ (v : ChWord) (s' t' : State), exec (.read idx) s = .next s' ∧ s'.responses = .rdValue v :: s.responses ∧
      exec (.read idx) t = .next t' ∧ t'.responses = .rdValue v :: t.responses

/-- R48: a READ, or the first step of a new POLL, is issued only when `pphase` = IDLE; a consumer turn with a POLL in flight
is that POLL's, and takes no command. Both clauses hold for every word, one that the decoder refuses too, of which R48
does not speak: that such a word waits as well is the model's choice (DEDUCED, log entry 7). -/
def Obligations.ConsumerIssuesOnlyWhenIdle : Prop :=
  (∀ (s : State) (w : CmdWord), nextAction s = .issue .consumer w → s.pphase = .idle) ∧
  ∀ (s t : State) (pick : Nat) (rest : List Turn), s.schedule = .consumer pick :: rest → s.pphase ≠ .idle →
    step s = .next t →
    (nextAction s = .clear ∨ (∃ j, nextAction s = .sample j) ∨ nextAction s = .commit) ∧
    t.consumerPort = s.consumerPort

/-- The model's choice (log entry 8): asked for a READ or a POLL where R48 says the consumer issues none, `exec` refuses by
name. No step asks for one there. -/
def Obligations.BusyConsumerOperationsRefused : Prop :=
  ∀ (s : State) (idx : Byte), s.pphase ≠ .idle →
    exec .poll s = .refused .consumerBusy ∧ exec (.read idx) s = .refused .consumerBusy

/-! ## Reset -/

/-- R160, R161: `rst` puts every architectural element at its reset value in one indivisible step in which no operation is
taken; `refused` is unchanged, and a POLL in flight is abandoned: no response and no commit. -/
def Obligations.ResetStep : Prop :=
  ∀ (s : State) (rest : List Turn), s.schedule = .rst :: rest →
    nextInstr s = none ∧ ∃ t : State, step s = .next t ∧
      (∀ k : Fin 21, t.buf[k] = 0x00) ∧ t.cursor = 0 ∧ t.ready = false ∧ (∀ i : Fin 8, t.ch[i] = 0) ∧ t.tLast = 0 ∧
      t.pphase = .idle ∧ (∀ j : Fin 18, t.smp[j] = none) ∧ t.refused = s.refused ∧ t.responses = s.responses

/-- R33: the state after reset. -/
def Obligations.ResetStateValues : Prop :=
  (∀ k : Fin 21, State.reset.buf[k] = 0x00) ∧ State.reset.cursor = 0 ∧ State.reset.ready = false ∧
  (∀ i : Fin 8, State.reset.ch[i] = 0) ∧ State.reset.tLast = 0 ∧ State.reset.pphase = .idle ∧
  (∀ j : Fin 18, State.reset.smp[j] = none) ∧ State.reset.refused = false

/-! ## The machine -/

/-- The invariant holds after reset, in either variant. The reset values are the spec's own decision D7 (log entry 3). -/
def Obligations.InvariantAtReset : Prop :=
  ∀ cfg : Config, Inv (State.start cfg)

/-- Every step keeps the invariant: samples only while gathering, no POLL in flight in the atomic variant (R109), channel
entries and READ results in the scalar's range (R24). A reset writes the values of the spec's own decision D7 (log
entry 3). -/
def Obligations.StepKeepsInvariant : Prop :=
  ∀ s t : State, Inv s → step s = .next t → Inv t

/-- The block's purpose (R71, R80 to R87, R100 to R108, R130): an aligned frame of raw channel values received without a
gap, then an uninterrupted POLL, in either variant and in any sample order, then a READ, answer true and the scaled
value of the channel. -/
def Obligations.FrameReceivedPolledAndRead : Prop :=
  ∀ (s : State) (t0 : Timestamp) (dt : Nat) (r : Vector RawWord 8) (idx : Byte) (picks : List Nat)
    (pcmds ccmds : List CmdWord) (rest : List Turn),
    s.pphase = .idle → (s.cursor = 0 ∨ 5000 < (gap t0 s.tLast).toNat) → dt ≤ 5000 →
    s.producerPort = (rxFrame t0 dt (frameOfRaw r)).map encode ++ pcmds →
    s.consumerPort = encode .poll :: encode (.read idx) :: ccmds →
    picks.length = (if s.cfg.pollAtomic = true then 2 else 22) →
    s.schedule = List.replicate 21 .producer ++ consumerPicks picks ++ rest →
    ∃ t : State, run (21 + picks.length) s = .next t ∧
      t.responses =
        .rdValue (if h : idx.toNat < 8 then scale r[idx.toNat] else 0) :: .pollNew true :: s.responses ∧
      t.ready = false ∧ t.pphase = .idle ∧ t.cursor = 20 ∧ t.tLast = frameTime t0 dt 20 ∧ t.refused = s.refused
end

