-- ==== Sys2Proof/Laws/Decode.lean ====
section
/-! SUPPORT. The command word's fields: laying them out and reading them back. -/

namespace Sys2Proof

@[simp] theorem fieldsOf_wordOf (c : Command) : fieldsOf (wordOf c) = c := by
  obtain ⟨op, a8, ts⟩ := c
  simp only [fieldsOf, wordOf, Command.mk.injEq]
  refine ⟨?_, ?_, ?_⟩ <;> ext i hi <;> simp <;> grind

@[simp] theorem wordOf_fieldsOf (w : CmdWord) : wordOf (fieldsOf w) = w := by
  simp only [fieldsOf, wordOf]
  ext i hi
  simp
  grind

theorem fieldsOf_op_toNat (w : CmdWord) : (fieldsOf w).op.toNat = w.toNat / 2 ^ 40 := by
  have := w.isLt
  simp only [fieldsOf, BitVec.extractLsb'_toNat, Nat.shiftRight_eq_div_pow]
  omega

theorem fieldsOf_a8_toNat (w : CmdWord) : (fieldsOf w).a8.toNat = w.toNat / 2 ^ 32 % 2 ^ 8 := by
  simp [fieldsOf, Nat.shiftRight_eq_div_pow]

theorem fieldsOf_ts_toNat (w : CmdWord) : (fieldsOf w).ts.toNat = w.toNat % 2 ^ 32 := by
  simp [fieldsOf]

@[simp] theorem fieldsOf_encode (i : Instr) : fieldsOf (encode i) = commandOf i := by
  simp [encode]

theorem wordOf_inj {c d : Command} : wordOf c = wordOf d ↔ c = d :=
  ⟨fun h => by simpa using congrArg fieldsOf h, fun h => h ▸ rfl⟩

/-- A mask acts on each field by itself. -/
theorem wordOf_and (c d : Command) : wordOf c &&& wordOf d = wordOf ⟨c.op &&& d.op, c.a8 &&& d.a8, c.ts &&& d.ts⟩ := by
  simp only [wordOf]
  ext i hi
  simp
  grind

theorem op_cases (op : BitVec 2) : op = 0 ∨ op = 1 ∨ op = 2 ∨ op = 3 := by revert op; decide

/-- The decoder on each `op` value (R67). -/
theorem decode_op0 {p : Port} {w : CmdWord} (h : (fieldsOf w).op = 0) :
    decode p w = if p = .producer then .ok (.rxByte (fieldsOf w).a8 (fieldsOf w).ts) else .error .wrongPort := by
  cases p <;> simp [decode, opPort, opInstr, h]

theorem decode_op1 {p : Port} {w : CmdWord} (h : (fieldsOf w).op = 1) :
    decode p w = if p = .consumer then
      if (fieldsOf w).a8 = 0 ∧ (fieldsOf w).ts = 0 then .ok .poll else .error .mustBeZero
      else .error .wrongPort := by
  cases p
  · simp [decode, opPort, h]
  · by_cases hz : (fieldsOf w).a8 = 0 ∧ (fieldsOf w).ts = 0
    · simp [decode, opPort, opInstr, h, hz]
    · simp only [decode, opPort, h, hz]; simp

theorem decode_op2 {p : Port} {w : CmdWord} (h : (fieldsOf w).op = 2) :
    decode p w = if p = .consumer then
      if (fieldsOf w).ts = 0 then .ok (.read (fieldsOf w).a8) else .error .mustBeZero
      else .error .wrongPort := by
  cases p
  · simp [decode, opPort, h]
  · by_cases hz : (fieldsOf w).ts = 0 <;> simp [decode, opPort, opInstr, h, hz]

theorem decode_op3 {p : Port} {w : CmdWord} (h : (fieldsOf w).op = 3) : decode p w = .error .reservedOp := by
  simp [decode, h]

/-- The decoder accepts exactly the words whose fields are well formed and whose `op` is legal on the port. -/
theorem decode_accepts_iff {p : Port} {w : CmdWord} :
    (∃ i, decode p w = .ok i) ↔ (fieldsOf w).wellFormed = true ∧ opPort (fieldsOf w).op = some p := by
  obtain h0 | h0 | h0 | h0 := op_cases (fieldsOf w).op
  · rw [decode_op0 h0]; cases p <;> simp [Command.wellFormed, opPort, h0]
  · rw [decode_op1 h0]; cases p
    · simp [opPort, h0]
    · rw [if_pos rfl]; split <;> simp_all [Command.wellFormed, opPort]
  · rw [decode_op2 h0]; cases p
    · simp [opPort, h0]
    · rw [if_pos rfl]; split <;> simp_all [Command.wellFormed, opPort]
  · rw [decode_op3 h0]; simp [Command.wellFormed, h0]

/-- Only RX_BYTE is decoded at the producer port (R62). -/
theorem decode_producer_cases {w : CmdWord} {i : Instr} (h : decode .producer w = .ok i) :
    ∃ data ts, i = .rxByte data ts := by
  obtain h0 | h0 | h0 | h0 := op_cases (fieldsOf w).op
  · rw [decode_op0 h0] at h; simp at h; exact ⟨_, _, h.symm⟩
  · rw [decode_op1 h0] at h; simp at h
  · rw [decode_op2 h0] at h; simp at h
  · rw [decode_op3 h0] at h; simp at h

/-- Only POLL and READ are decoded at the consumer port (R62). -/
theorem decode_consumer_cases {w : CmdWord} {i : Instr} (h : decode .consumer w = .ok i) :
    i = .poll ∨ ∃ idx, i = .read idx := by
  obtain h0 | h0 | h0 | h0 := op_cases (fieldsOf w).op
  · rw [decode_op0 h0] at h; simp at h
  · rw [decode_op1 h0, if_pos rfl] at h
    split at h
    · exact .inl (Except.ok.inj h).symm
    · cases h
  · rw [decode_op2 h0, if_pos rfl] at h
    split at h
    · exact .inr ⟨_, (Except.ok.inj h).symm⟩
    · cases h
  · rw [decode_op3 h0] at h; simp at h

end Sys2Proof
end

