-- ==== Sys2Proof/Laws/State.lean ====
section
/-! SUPPORT. What each update of the state leaves in each field: one lemma per field per update, true by rfl. -/

namespace Sys2Proof.Machine

variable (s : State)

@[simp] theorem setReady_buf : (setReady s).buf = s.buf := rfl
@[simp] theorem setReady_cursor : (setReady s).cursor = s.cursor := rfl
@[simp] theorem setReady_ready : (setReady s).ready = true := rfl
@[simp] theorem setReady_ch : (setReady s).ch = s.ch := rfl
@[simp] theorem setReady_tLast : (setReady s).tLast = s.tLast := rfl
@[simp] theorem setReady_pphase : (setReady s).pphase = s.pphase := rfl
@[simp] theorem setReady_smp : (setReady s).smp = s.smp := rfl
@[simp] theorem setReady_refused : (setReady s).refused = s.refused := rfl
@[simp] theorem setReady_cfg : (setReady s).cfg = s.cfg := rfl
@[simp] theorem setReady_producerPort : (setReady s).producerPort = s.producerPort := rfl
@[simp] theorem setReady_consumerPort : (setReady s).consumerPort = s.consumerPort := rfl
@[simp] theorem setReady_schedule : (setReady s).schedule = s.schedule := rfl
@[simp] theorem setReady_responses : (setReady s).responses = s.responses := rfl

@[simp] theorem clearReady_buf : (clearReady s).buf = s.buf := rfl
@[simp] theorem clearReady_cursor : (clearReady s).cursor = s.cursor := rfl
@[simp] theorem clearReady_ready : (clearReady s).ready = false := rfl
@[simp] theorem clearReady_ch : (clearReady s).ch = s.ch := rfl
@[simp] theorem clearReady_tLast : (clearReady s).tLast = s.tLast := rfl
@[simp] theorem clearReady_pphase : (clearReady s).pphase = s.pphase := rfl
@[simp] theorem clearReady_smp : (clearReady s).smp = s.smp := rfl
@[simp] theorem clearReady_refused : (clearReady s).refused = s.refused := rfl
@[simp] theorem clearReady_cfg : (clearReady s).cfg = s.cfg := rfl
@[simp] theorem clearReady_producerPort : (clearReady s).producerPort = s.producerPort := rfl
@[simp] theorem clearReady_consumerPort : (clearReady s).consumerPort = s.consumerPort := rfl
@[simp] theorem clearReady_schedule : (clearReady s).schedule = s.schedule := rfl
@[simp] theorem clearReady_responses : (clearReady s).responses = s.responses := rfl

@[simp] theorem refuse_buf : (refuse s).buf = s.buf := rfl
@[simp] theorem refuse_cursor : (refuse s).cursor = s.cursor := rfl
@[simp] theorem refuse_ready : (refuse s).ready = s.ready := rfl
@[simp] theorem refuse_ch : (refuse s).ch = s.ch := rfl
@[simp] theorem refuse_tLast : (refuse s).tLast = s.tLast := rfl
@[simp] theorem refuse_pphase : (refuse s).pphase = s.pphase := rfl
@[simp] theorem refuse_smp : (refuse s).smp = s.smp := rfl
@[simp] theorem refuse_refused : (refuse s).refused = true := rfl
@[simp] theorem refuse_cfg : (refuse s).cfg = s.cfg := rfl
@[simp] theorem refuse_producerPort : (refuse s).producerPort = s.producerPort := rfl
@[simp] theorem refuse_consumerPort : (refuse s).consumerPort = s.consumerPort := rfl
@[simp] theorem refuse_schedule : (refuse s).schedule = s.schedule := rfl
@[simp] theorem refuse_responses : (refuse s).responses = s.responses := rfl

@[simp] theorem bufWrite_buf (k : Fin 21) (v : Byte) : (bufWrite k v s).buf = s.buf.set k.val v k.isLt := rfl
@[simp] theorem bufWrite_cursor (k : Fin 21) (v : Byte) : (bufWrite k v s).cursor = s.cursor := rfl
@[simp] theorem bufWrite_ready (k : Fin 21) (v : Byte) : (bufWrite k v s).ready = s.ready := rfl
@[simp] theorem bufWrite_ch (k : Fin 21) (v : Byte) : (bufWrite k v s).ch = s.ch := rfl
@[simp] theorem bufWrite_tLast (k : Fin 21) (v : Byte) : (bufWrite k v s).tLast = s.tLast := rfl
@[simp] theorem bufWrite_pphase (k : Fin 21) (v : Byte) : (bufWrite k v s).pphase = s.pphase := rfl
@[simp] theorem bufWrite_smp (k : Fin 21) (v : Byte) : (bufWrite k v s).smp = s.smp := rfl
@[simp] theorem bufWrite_refused (k : Fin 21) (v : Byte) : (bufWrite k v s).refused = s.refused := rfl
@[simp] theorem bufWrite_cfg (k : Fin 21) (v : Byte) : (bufWrite k v s).cfg = s.cfg := rfl
@[simp] theorem bufWrite_producerPort (k : Fin 21) (v : Byte) : (bufWrite k v s).producerPort = s.producerPort := rfl
@[simp] theorem bufWrite_consumerPort (k : Fin 21) (v : Byte) : (bufWrite k v s).consumerPort = s.consumerPort := rfl
@[simp] theorem bufWrite_schedule (k : Fin 21) (v : Byte) : (bufWrite k v s).schedule = s.schedule := rfl
@[simp] theorem bufWrite_responses (k : Fin 21) (v : Byte) : (bufWrite k v s).responses = s.responses := rfl

@[simp] theorem chCommit_buf (vals : Vector ChWord 8) : (chCommit vals s).buf = s.buf := rfl
@[simp] theorem chCommit_cursor (vals : Vector ChWord 8) : (chCommit vals s).cursor = s.cursor := rfl
@[simp] theorem chCommit_ready (vals : Vector ChWord 8) : (chCommit vals s).ready = s.ready := rfl
@[simp] theorem chCommit_ch (vals : Vector ChWord 8) : (chCommit vals s).ch = vals := rfl
@[simp] theorem chCommit_tLast (vals : Vector ChWord 8) : (chCommit vals s).tLast = s.tLast := rfl
@[simp] theorem chCommit_pphase (vals : Vector ChWord 8) : (chCommit vals s).pphase = s.pphase := rfl
@[simp] theorem chCommit_smp (vals : Vector ChWord 8) : (chCommit vals s).smp = s.smp := rfl
@[simp] theorem chCommit_refused (vals : Vector ChWord 8) : (chCommit vals s).refused = s.refused := rfl
@[simp] theorem chCommit_cfg (vals : Vector ChWord 8) : (chCommit vals s).cfg = s.cfg := rfl
@[simp] theorem chCommit_producerPort (vals : Vector ChWord 8) : (chCommit vals s).producerPort = s.producerPort := rfl
@[simp] theorem chCommit_consumerPort (vals : Vector ChWord 8) : (chCommit vals s).consumerPort = s.consumerPort := rfl
@[simp] theorem chCommit_schedule (vals : Vector ChWord 8) : (chCommit vals s).schedule = s.schedule := rfl
@[simp] theorem chCommit_responses (vals : Vector ChWord 8) : (chCommit vals s).responses = s.responses := rfl

@[simp] theorem respond_buf (r : Response) : (respond r s).buf = s.buf := rfl
@[simp] theorem respond_cursor (r : Response) : (respond r s).cursor = s.cursor := rfl
@[simp] theorem respond_ready (r : Response) : (respond r s).ready = s.ready := rfl
@[simp] theorem respond_ch (r : Response) : (respond r s).ch = s.ch := rfl
@[simp] theorem respond_tLast (r : Response) : (respond r s).tLast = s.tLast := rfl
@[simp] theorem respond_pphase (r : Response) : (respond r s).pphase = s.pphase := rfl
@[simp] theorem respond_smp (r : Response) : (respond r s).smp = s.smp := rfl
@[simp] theorem respond_refused (r : Response) : (respond r s).refused = s.refused := rfl
@[simp] theorem respond_cfg (r : Response) : (respond r s).cfg = s.cfg := rfl
@[simp] theorem respond_producerPort (r : Response) : (respond r s).producerPort = s.producerPort := rfl
@[simp] theorem respond_consumerPort (r : Response) : (respond r s).consumerPort = s.consumerPort := rfl
@[simp] theorem respond_schedule (r : Response) : (respond r s).schedule = s.schedule := rfl
@[simp] theorem respond_responses (r : Response) : (respond r s).responses = r :: s.responses := rfl

@[simp] theorem applyReset_buf : (applyReset s).buf = resetBuf := rfl
@[simp] theorem applyReset_cursor : (applyReset s).cursor = 0 := rfl
@[simp] theorem applyReset_ready : (applyReset s).ready = false := rfl
@[simp] theorem applyReset_ch : (applyReset s).ch = resetCh := rfl
@[simp] theorem applyReset_tLast : (applyReset s).tLast = 0 := rfl
@[simp] theorem applyReset_pphase : (applyReset s).pphase = .idle := rfl
@[simp] theorem applyReset_smp : (applyReset s).smp = emptySmp := rfl
@[simp] theorem applyReset_refused : (applyReset s).refused = s.refused := rfl
@[simp] theorem applyReset_cfg : (applyReset s).cfg = s.cfg := rfl
@[simp] theorem applyReset_producerPort : (applyReset s).producerPort = s.producerPort := rfl
@[simp] theorem applyReset_consumerPort : (applyReset s).consumerPort = s.consumerPort := rfl
@[simp] theorem applyReset_schedule : (applyReset s).schedule = s.schedule := rfl
@[simp] theorem applyReset_responses : (applyReset s).responses = s.responses := rfl

@[simp] theorem resyncCursor_buf (ts : Timestamp) : (resyncCursor ts s).buf = s.buf := rfl
@[simp] theorem resyncCursor_cursor (ts : Timestamp) : (resyncCursor ts s).cursor = storeIndex ts s := rfl
@[simp] theorem resyncCursor_ready (ts : Timestamp) : (resyncCursor ts s).ready = s.ready := rfl
@[simp] theorem resyncCursor_ch (ts : Timestamp) : (resyncCursor ts s).ch = s.ch := rfl
@[simp] theorem resyncCursor_tLast (ts : Timestamp) : (resyncCursor ts s).tLast = s.tLast := rfl
@[simp] theorem resyncCursor_pphase (ts : Timestamp) : (resyncCursor ts s).pphase = s.pphase := rfl
@[simp] theorem resyncCursor_smp (ts : Timestamp) : (resyncCursor ts s).smp = s.smp := rfl
@[simp] theorem resyncCursor_refused (ts : Timestamp) : (resyncCursor ts s).refused = s.refused := rfl
@[simp] theorem resyncCursor_cfg (ts : Timestamp) : (resyncCursor ts s).cfg = s.cfg := rfl
@[simp] theorem resyncCursor_producerPort (ts : Timestamp) : (resyncCursor ts s).producerPort = s.producerPort := rfl
@[simp] theorem resyncCursor_consumerPort (ts : Timestamp) : (resyncCursor ts s).consumerPort = s.consumerPort := rfl
@[simp] theorem resyncCursor_schedule (ts : Timestamp) : (resyncCursor ts s).schedule = s.schedule := rfl
@[simp] theorem resyncCursor_responses (ts : Timestamp) : (resyncCursor ts s).responses = s.responses := rfl

@[simp] theorem storeByte_buf (data : Byte) : (storeByte data s).buf = s.buf.set s.cursor.val data s.cursor.isLt := rfl
@[simp] theorem storeByte_cursor (data : Byte) : (storeByte data s).cursor = s.cursor := rfl
@[simp] theorem storeByte_ready (data : Byte) : (storeByte data s).ready = s.ready := rfl
@[simp] theorem storeByte_ch (data : Byte) : (storeByte data s).ch = s.ch := rfl
@[simp] theorem storeByte_tLast (data : Byte) : (storeByte data s).tLast = s.tLast := rfl
@[simp] theorem storeByte_pphase (data : Byte) : (storeByte data s).pphase = s.pphase := rfl
@[simp] theorem storeByte_smp (data : Byte) : (storeByte data s).smp = s.smp := rfl
@[simp] theorem storeByte_refused (data : Byte) : (storeByte data s).refused = s.refused := rfl
@[simp] theorem storeByte_cfg (data : Byte) : (storeByte data s).cfg = s.cfg := rfl
@[simp] theorem storeByte_producerPort (data : Byte) : (storeByte data s).producerPort = s.producerPort := rfl
@[simp] theorem storeByte_consumerPort (data : Byte) : (storeByte data s).consumerPort = s.consumerPort := rfl
@[simp] theorem storeByte_schedule (data : Byte) : (storeByte data s).schedule = s.schedule := rfl
@[simp] theorem storeByte_responses (data : Byte) : (storeByte data s).responses = s.responses := rfl

@[simp] theorem stampTime_buf (ts : Timestamp) : (stampTime ts s).buf = s.buf := rfl
@[simp] theorem stampTime_cursor (ts : Timestamp) : (stampTime ts s).cursor = s.cursor := rfl
@[simp] theorem stampTime_ready (ts : Timestamp) : (stampTime ts s).ready = s.ready := rfl
@[simp] theorem stampTime_ch (ts : Timestamp) : (stampTime ts s).ch = s.ch := rfl
@[simp] theorem stampTime_tLast (ts : Timestamp) : (stampTime ts s).tLast = ts := rfl
@[simp] theorem stampTime_pphase (ts : Timestamp) : (stampTime ts s).pphase = s.pphase := rfl
@[simp] theorem stampTime_smp (ts : Timestamp) : (stampTime ts s).smp = s.smp := rfl
@[simp] theorem stampTime_refused (ts : Timestamp) : (stampTime ts s).refused = s.refused := rfl
@[simp] theorem stampTime_cfg (ts : Timestamp) : (stampTime ts s).cfg = s.cfg := rfl
@[simp] theorem stampTime_producerPort (ts : Timestamp) : (stampTime ts s).producerPort = s.producerPort := rfl
@[simp] theorem stampTime_consumerPort (ts : Timestamp) : (stampTime ts s).consumerPort = s.consumerPort := rfl
@[simp] theorem stampTime_schedule (ts : Timestamp) : (stampTime ts s).schedule = s.schedule := rfl
@[simp] theorem stampTime_responses (ts : Timestamp) : (stampTime ts s).responses = s.responses := rfl

@[simp] theorem pollClear_buf : (pollClear s).buf = s.buf := rfl
@[simp] theorem pollClear_cursor : (pollClear s).cursor = s.cursor := rfl
@[simp] theorem pollClear_ready : (pollClear s).ready = false := rfl
@[simp] theorem pollClear_ch : (pollClear s).ch = s.ch := rfl
@[simp] theorem pollClear_tLast : (pollClear s).tLast = s.tLast := rfl
@[simp] theorem pollClear_pphase : (pollClear s).pphase = .gather := rfl
@[simp] theorem pollClear_smp : (pollClear s).smp = emptySmp := rfl
@[simp] theorem pollClear_refused : (pollClear s).refused = s.refused := rfl
@[simp] theorem pollClear_cfg : (pollClear s).cfg = s.cfg := rfl
@[simp] theorem pollClear_producerPort : (pollClear s).producerPort = s.producerPort := rfl
@[simp] theorem pollClear_consumerPort : (pollClear s).consumerPort = s.consumerPort := rfl
@[simp] theorem pollClear_schedule : (pollClear s).schedule = s.schedule := rfl
@[simp] theorem pollClear_responses : (pollClear s).responses = s.responses := rfl

@[simp] theorem pollSample_buf (j : Fin 18) : (pollSample j s).buf = s.buf := rfl
@[simp] theorem pollSample_cursor (j : Fin 18) : (pollSample j s).cursor = s.cursor := rfl
@[simp] theorem pollSample_ready (j : Fin 18) : (pollSample j s).ready = s.ready := rfl
@[simp] theorem pollSample_ch (j : Fin 18) : (pollSample j s).ch = s.ch := rfl
@[simp] theorem pollSample_tLast (j : Fin 18) : (pollSample j s).tLast = s.tLast := rfl
@[simp] theorem pollSample_pphase (j : Fin 18) : (pollSample j s).pphase = s.pphase := rfl
@[simp] theorem pollSample_smp (j : Fin 18) : (pollSample j s).smp = s.smp.set j.val (some s.buf[slotIndex j]) j.isLt := rfl
@[simp] theorem pollSample_refused (j : Fin 18) : (pollSample j s).refused = s.refused := rfl
@[simp] theorem pollSample_cfg (j : Fin 18) : (pollSample j s).cfg = s.cfg := rfl
@[simp] theorem pollSample_producerPort (j : Fin 18) : (pollSample j s).producerPort = s.producerPort := rfl
@[simp] theorem pollSample_consumerPort (j : Fin 18) : (pollSample j s).consumerPort = s.consumerPort := rfl
@[simp] theorem pollSample_schedule (j : Fin 18) : (pollSample j s).schedule = s.schedule := rfl
@[simp] theorem pollSample_responses (j : Fin 18) : (pollSample j s).responses = s.responses := rfl

@[simp] theorem takeTurn_buf : (takeTurn s).buf = s.buf := rfl
@[simp] theorem takeTurn_cursor : (takeTurn s).cursor = s.cursor := rfl
@[simp] theorem takeTurn_ready : (takeTurn s).ready = s.ready := rfl
@[simp] theorem takeTurn_ch : (takeTurn s).ch = s.ch := rfl
@[simp] theorem takeTurn_tLast : (takeTurn s).tLast = s.tLast := rfl
@[simp] theorem takeTurn_pphase : (takeTurn s).pphase = s.pphase := rfl
@[simp] theorem takeTurn_smp : (takeTurn s).smp = s.smp := rfl
@[simp] theorem takeTurn_refused : (takeTurn s).refused = s.refused := rfl
@[simp] theorem takeTurn_cfg : (takeTurn s).cfg = s.cfg := rfl
@[simp] theorem takeTurn_producerPort : (takeTurn s).producerPort = s.producerPort := rfl
@[simp] theorem takeTurn_consumerPort : (takeTurn s).consumerPort = s.consumerPort := rfl
@[simp] theorem takeTurn_schedule : (takeTurn s).schedule = s.schedule.tail := rfl
@[simp] theorem takeTurn_responses : (takeTurn s).responses = s.responses := rfl

@[simp] theorem endPoll_buf : (endPoll s).buf = s.buf := rfl
@[simp] theorem endPoll_cursor : (endPoll s).cursor = s.cursor := rfl
@[simp] theorem endPoll_ready : (endPoll s).ready = s.ready := rfl
@[simp] theorem endPoll_ch : (endPoll s).ch = s.ch := rfl
@[simp] theorem endPoll_tLast : (endPoll s).tLast = s.tLast := rfl
@[simp] theorem endPoll_pphase : (endPoll s).pphase = .idle := rfl
@[simp] theorem endPoll_smp : (endPoll s).smp = emptySmp := rfl
@[simp] theorem endPoll_refused : (endPoll s).refused = s.refused := rfl
@[simp] theorem endPoll_cfg : (endPoll s).cfg = s.cfg := rfl
@[simp] theorem endPoll_producerPort : (endPoll s).producerPort = s.producerPort := rfl
@[simp] theorem endPoll_consumerPort : (endPoll s).consumerPort = s.consumerPort := rfl
@[simp] theorem endPoll_schedule : (endPoll s).schedule = s.schedule := rfl
@[simp] theorem endPoll_responses : (endPoll s).responses = s.responses := rfl

@[simp] theorem asBaseline_buf (turns : List Turn) : (asBaseline s turns).buf = s.buf := rfl
@[simp] theorem asBaseline_cursor (turns : List Turn) : (asBaseline s turns).cursor = s.cursor := rfl
@[simp] theorem asBaseline_ready (turns : List Turn) : (asBaseline s turns).ready = s.ready := rfl
@[simp] theorem asBaseline_ch (turns : List Turn) : (asBaseline s turns).ch = s.ch := rfl
@[simp] theorem asBaseline_tLast (turns : List Turn) : (asBaseline s turns).tLast = s.tLast := rfl
@[simp] theorem asBaseline_pphase (turns : List Turn) : (asBaseline s turns).pphase = s.pphase := rfl
@[simp] theorem asBaseline_smp (turns : List Turn) : (asBaseline s turns).smp = s.smp := rfl
@[simp] theorem asBaseline_refused (turns : List Turn) : (asBaseline s turns).refused = s.refused := rfl
@[simp] theorem asBaseline_cfg (turns : List Turn) : (asBaseline s turns).cfg = Config.baseline := rfl
@[simp] theorem asBaseline_producerPort (turns : List Turn) : (asBaseline s turns).producerPort = s.producerPort := rfl
@[simp] theorem asBaseline_consumerPort (turns : List Turn) : (asBaseline s turns).consumerPort = s.consumerPort := rfl
@[simp] theorem asBaseline_schedule (turns : List Turn) : (asBaseline s turns).schedule = turns := rfl
@[simp] theorem asBaseline_responses (turns : List Turn) : (asBaseline s turns).responses = s.responses := rfl

end Sys2Proof.Machine
end

