-- ==== Sys2Proof/Laws/Ops.lean ====
section
/-! SUPPORT. What each shared operation can do, once: the lemmas that proofs about instructions cite in place of the
definitions. -/

namespace Sys2Proof.Machine

/-! ### Indices and operands -/

theorem slotIndex_val (j : Fin 18) : (slotIndex j).val = if j.val = 0 then 0 else j.val + 2 := by
  unfold slotIndex; split <;> rfl

theorem slotIndex_injective : ∀ {j j' : Fin 18}, slotIndex j = slotIndex j' → j = j' := by decide

@[simp] theorem slotIndex_syncSlot : slotIndex syncSlot = 0 := rfl

@[simp] theorem slotIndex_markSlot : slotIndex markSlot = 19 := rfl

theorem slotIndex_highSlot (i : Fin 8) : slotIndex (highSlot i) = ⟨3 + 2 * i.val, by omega⟩ := by
  revert i; decide

theorem slotIndex_lowSlot (i : Fin 8) : slotIndex (lowSlot i) = ⟨4 + 2 * i.val, by omega⟩ := by
  revert i; decide

theorem gap_toNat (ts tLast : Timestamp) : (gap ts tLast).toNat = (ts.toNat + 2 ^ 32 - tLast.toNat) % 2 ^ 32 := by
  have := ts.isLt
  have := tLast.isLt
  simp only [gap, BitVec.toNat_sub]
  omega

theorem resync_iff {ts tLast : Timestamp} : resync ts tLast = true ↔ 5000 < (gap ts tLast).toNat :=
  decide_eq_true_iff

theorem storeIndex_eq (ts : Timestamp) (s : State) :
    storeIndex ts s = if 5000 < (gap ts s.tLast).toNat then 0 else s.cursor := by
  simp only [storeIndex, resync_iff]

/-- The store index reads the cursor and the last timestamp, and nothing else. -/
theorem storeIndex_congr {s t : State} (ts : Timestamp) (hc : t.cursor = s.cursor) (hl : t.tLast = s.tLast) :
    storeIndex ts t = storeIndex ts s := by
  simp [storeIndex, hc, hl]

theorem storeIndex_of_gap {s : State} {ts : Timestamp} (h : 5000 < (gap ts s.tLast).toNat) : storeIndex ts s = 0 := by
  rw [storeIndex_eq, if_pos h]

theorem storeIndex_of_no_gap {s : State} {ts : Timestamp} (h : (gap ts s.tLast).toNat ≤ 5000) :
    storeIndex ts s = s.cursor := by
  rw [storeIndex_eq, if_neg (by omega)]

@[simp] theorem mem_pendingSlots {s : State} {j : Fin 18} : j ∈ pendingSlots s ↔ s.smp[j] = none := by
  simp [pendingSlots]

theorem pendingSlots_congr {s t : State} (h : t.smp = s.smp) : pendingSlots t = pendingSlots s := by
  simp [pendingSlots, h]

theorem pendingSlots_nodup (s : State) : (pendingSlots s).Nodup := (List.nodup_finRange 18).filter _

theorem pendingSlots_eq_nil {s : State} : pendingSlots s = [] ↔ ∀ j : Fin 18, s.smp[j] ≠ none := by
  simp only [List.eq_nil_iff_forall_not_mem, mem_pendingSlots, ne_eq]

/-- With nothing sampled, all 18 slots are pending. -/
theorem pendingSlots_of_empty {s : State} (h : s.smp = emptySmp) : pendingSlots s = List.finRange 18 := by
  simp [pendingSlots, h, emptySmp]

/-- A SAMPLE takes its slot off the list of those pending, and no other. -/
theorem pendingSlots_sample {s t : State} {j : Fin 18} {b : Byte} (h : t.smp = s.smp.set j.val (some b) j.isLt) :
    pendingSlots t = (pendingSlots s).erase j := by
  rw [(pendingSlots_nodup s).erase_eq_filter]
  simp only [pendingSlots, List.filter_filter, h]
  apply List.filter_congr
  intro k _
  by_cases hk : k = j
  · subst hk; simp
  · have : j.val ≠ k.val := fun e => hk (Fin.ext e.symm)
    simp [this, hk]

/-- What the scheduler's pick takes is pending. -/
theorem pickSlot_mem {pick : Nat} {s : State} {j : Fin 18} (h : pickSlot pick s = some j) : j ∈ pendingSlots s :=
  List.mem_of_getElem? h

/-- There is nothing to pick exactly when every sample is taken. -/
theorem pickSlot_eq_none {pick : Nat} {s : State} : pickSlot pick s = none ↔ pendingSlots s = [] := by
  unfold pickSlot
  rw [List.getElem?_eq_none_iff]
  constructor
  · intro h
    by_contra hne
    exact absurd (Nat.mod_lt pick (List.length_pos_iff.mpr hne)) (by omega)
  · intro h; simp [h]

/-- Every pending slot can be picked (R103). -/
theorem exists_pickSlot {s : State} {j : Fin 18} (h : j ∈ pendingSlots s) : ∃ pick, pickSlot pick s = some j := by
  obtain ⟨n, hn, e⟩ := List.getElem_of_mem h
  exact ⟨n, by rw [pickSlot, Nat.mod_eq_of_lt hn, List.getElem?_eq_getElem hn, e]⟩

theorem pickSlot_congr {s t : State} (pick : Nat) (h : t.smp = s.smp) : pickSlot pick t = pickSlot pick s := by
  simp [pickSlot, pendingSlots_congr h]

/-- When every sample is taken, what is gathered is what was sampled. -/
theorem gathered_getElem {s : State} {j : Fin 18} {b : Byte} (h : s.smp[j] = some b) : (gathered s)[j] = b := by
  have : s.smp[j.val] = some b := h
  simp [gathered, this]

@[simp] theorem snapshot_getElem (s : State) (j : Fin 18) : (snapshot s)[j] = s.buf[slotIndex j] := by
  simp [snapshot]

/-- Channel i is decoded from its two sampled bytes, high byte first (R106, R107). -/
@[simp] theorem channelsOf_getElem (v : Vector Byte 18) (i : Fin 8) :
    (channelsOf v)[i] = scale (v[highSlot i] ++ v[lowSlot i]) := by
  simp [channelsOf, rawOf]

/-- The channels decoded from the buffer as it stands. -/
theorem channelsOf_snapshot (s : State) :
    channelsOf (snapshot s) = Vector.ofFn fun i : Fin 8 => scale (s.buf[3 + 2 * i.val] ++ s.buf[4 + 2 * i.val]) := by
  apply Vector.ext
  intro n hn
  have h := channelsOf_getElem (snapshot s) ⟨n, hn⟩
  simp only [snapshot_getElem, slotIndex_highSlot, slotIndex_lowSlot] at h
  rw [Vector.getElem_ofFn]
  exact h

/-! ### Receiving -/

/-- Everything an RX_BYTE does, in one equation per field it writes. -/
theorem execRxByte_eq (data : Byte) (ts : Timestamp) (s : State) :
    ∃ t, execRxByte data ts s = .next t ∧
      t = { s with
        buf := s.buf.set (storeIndex ts s).val data (storeIndex ts s).isLt
        cursor := t.cursor
        ready := if storeIndex ts s = 20 then true else s.ready
        tLast := ts } ∧
      t.cursor.val = if storeIndex ts s = 20 then 20 else (storeIndex ts s).val + 1 := by
  refine ⟨_, rfl, ?_, ?_⟩
  · by_cases h : storeIndex ts s = 20 <;> simp [stampTime, advanceCursor, storeByte, bufWrite, resyncCursor, setReady, Config.lastIdx, h]
  · by_cases h : storeIndex ts s = 20 <;> simp [stampTime, advanceCursor, storeByte, bufWrite, resyncCursor, setReady, Config.lastIdx, h]

/-! ### Polling and reading -/

/-- The two ends of a POLL. -/
theorem decodeFrame_cases (v : Vector Byte 18) (s : State) :
    (valid v[syncSlot] v[markSlot] = true ∧ decodeFrame v s = respond (.pollNew true) (chCommit (channelsOf v) s)) ∨
    (valid v[syncSlot] v[markSlot] = false ∧ decodeFrame v s = respond (.pollNew false) s) := by
  unfold decodeFrame
  cases h : valid v[syncSlot] v[markSlot] <;> simp

theorem valid_iff {b0 b19 : Byte} : (valid b0 b19 = true) = (b0 = 0xA8 ∧ b19 = 0x00) := by
  simp [valid, Config.sync, Config.markValue]

/-- The ends of a whole POLL (R100, R109). -/
theorem pollWhole_cases (s : State) :
    (s.ready = false ∧ pollWhole s = respond (.pollNew false) s) ∨
    (s.ready = true ∧ valid s.buf[0] s.buf[19] = true ∧
      pollWhole s = respond (.pollNew true) (chCommit (channelsOf (snapshot s)) (clearReady s))) ∨
    (s.ready = true ∧ valid s.buf[0] s.buf[19] = false ∧
      pollWhole s = respond (.pollNew false) (clearReady s)) := by
  have e : valid (snapshot s)[syncSlot] (snapshot s)[markSlot] = valid s.buf[0] s.buf[19] := by
    rw [snapshot_getElem, snapshot_getElem]; rfl
  unfold pollWhole
  cases hr : s.ready
  · exact .inl ⟨rfl, by simp⟩
  · right
    obtain ⟨h, h'⟩ | ⟨h, h'⟩ := decodeFrame_cases (snapshot s) (clearReady s)
    · exact .inl ⟨rfl, e ▸ h, by simp [h']⟩
    · exact .inr ⟨rfl, e ▸ h, by simp [h']⟩

/-- The ends of the step TEST (R101). -/
theorem pollTest_cases (s : State) :
    (s.ready = false ∧ pollTest s = respond (.pollNew false) s) ∨
    (s.ready = true ∧ pollTest s = { s with pphase := .tested }) := by
  unfold pollTest; cases s.ready <;> simp

/-- The ends of the step COMMIT (R108). -/
theorem pollCommit_cases (s : State) :
    (valid (gathered s)[syncSlot] (gathered s)[markSlot] = true ∧
      pollCommit s = endPoll (respond (.pollNew true) (chCommit (channelsOf (gathered s)) s))) ∨
    (valid (gathered s)[syncSlot] (gathered s)[markSlot] = false ∧
      pollCommit s = endPoll (respond (.pollNew false) s)) := by
  unfold pollCommit
  obtain ⟨h, h'⟩ | ⟨h, h'⟩ := decodeFrame_cases (gathered s) s
  · exact .inl ⟨h, by rw [h']; rfl⟩
  · exact .inr ⟨h, by rw [h']; rfl⟩

/-- A POLL where the consumer may issue one (R48). -/
theorem execPoll_idle {s : State} (h : s.pphase = .idle) :
    execPoll s = .next (if s.cfg.pollAtomic then pollWhole s else pollTest s) := by
  simp only [execPoll, h]; cases s.cfg.pollAtomic <;> simp

/-- A READ where the consumer may issue one (R48). -/
theorem execRead_idle {s : State} (idx : Byte) (h : s.pphase = .idle) :
    execRead idx s = .next (respond (.rdValue (muxValue idx s)) s) := by
  simp [execRead, h]

theorem muxValue_eq (idx : Byte) (s : State) :
    muxValue idx s = if h : idx.toNat < 8 then s.ch[idx.toNat] else 0 := by
  unfold muxValue channelOf chRead
  by_cases h : idx.toNat < 8 <;> simp [h]

end Sys2Proof.Machine
end

