-- ==== Sys2Proof/Laws/PerInstr.lean ====
section
/-! SUPPORT. The family EncodedCommand: what the encoder writes for each operation, said of its fields. -/

namespace Sys2Proof.Laws.EncodedCommand

/-- The word of an operation has well-formed fields (R61, R68), an `op` legal on the operation's port and no other (R62),
and fields that give the operation back (R63 to R65). -/
def Statement (i : Instr) : Prop :=
  (fieldsOf (encode i)).wellFormed = true ∧ opPort (fieldsOf (encode i)).op = some i.port ∧
    opInstr (fieldsOf (encode i)) = i

theorem rxByte (data : Byte) (ts : Timestamp) : Statement (.rxByte data ts) := by
  simp [Statement, commandOf, Command.wellFormed, opPort, opInstr, Instr.port]

theorem poll : Statement .poll := by
  simp [Statement, commandOf, Command.wellFormed, opPort, opInstr, Instr.port]

theorem read (idx : Byte) : Statement (.read idx) := by
  simp [Statement, commandOf, Command.wellFormed, opPort, opInstr, Instr.port]

end Sys2Proof.Laws.EncodedCommand
end

