-- ==== Sys2Proof/Laws/Scalar.lean ====
section
/-! SUPPORT. Division toward zero by 32, said once: all that a proof about the scalar needs of it. -/

namespace Sys2Proof.Machine

/-- Above or at 0 the quotient rounds down, below 0 it rounds up. -/
theorem tdiv_32_bounds (n : Int) :
    (0 ≤ n → 32 * n.tdiv 32 ≤ n ∧ n < 32 * n.tdiv 32 + 32) ∧
    (n < 0 → n ≤ 32 * n.tdiv 32 ∧ 32 * n.tdiv 32 < n + 32) := by
  constructor
  · intro h
    rw [Int.tdiv_eq_ediv_of_nonneg h]
    omega
  · intro h
    have e : n.tdiv 32 = -((-n).tdiv 32) := by rw [Int.neg_tdiv]; omega
    rw [e, Int.tdiv_eq_ediv_of_nonneg (by omega)]
    omega

/-- What determines scale(raw) (R107): it is the quotient of n = 5·raw − 12000 by 32, rounded toward zero. -/
theorem scaleInt_bounds (raw : RawWord) :
    (2400 ≤ raw.toNat → 32 * scaleInt raw ≤ 5 * raw.toNat - 12000 ∧ 5 * raw.toNat - 12000 < 32 * scaleInt raw + 32) ∧
    (raw.toNat < 2400 → 5 * raw.toNat - 12000 ≤ 32 * scaleInt raw ∧ 32 * scaleInt raw < 5 * raw.toNat - 12000 + 32) := by
  have h := tdiv_32_bounds (5 * (raw.toNat : Int) - 12000)
  exact ⟨fun g => h.1 (by omega), fun g => h.2 (by omega)⟩

end Sys2Proof.Machine
end

