-- ==== Sys2Proof/Laws/Step.lean ====
section
/-! SUPPORT. What one step can do: an equation for each shape of state, and from them the inversion of a step. -/

namespace Sys2Proof.Machine

theorem step_of_no_turn {s : State} (h : s.schedule = []) : step s = .next s := by
  have : takeTurn s = s := by simp [takeTurn, h]; rw [← h]
  simp [step, performNext, nextAction, h, takeWord, perform, this]

theorem step_of_producer_silent {s : State} {rest : List Turn} (h : s.schedule = .producer :: rest)
    (hp : s.producerPort = []) : step s = .next { s with schedule := rest } := by
  simp [step, performNext, nextAction, producerAction, h, hp, takeWord, perform, takeTurn]

theorem step_of_producer_word {s : State} {rest : List Turn} {w : CmdWord} {ws : List CmdWord}
    (h : s.schedule = .producer :: rest) (hp : s.producerPort = w :: ws) :
    step s = issueCommand .producer w { s with schedule := rest, producerPort := ws } := by
  simp [step, performNext, nextAction, producerAction, h, hp, takeWord, perform, takeTurn]

theorem step_of_consumer_silent {s : State} {rest : List Turn} {pick : Nat} (h : s.schedule = .consumer pick :: rest)
    (hi : s.pphase = .idle) (hp : s.consumerPort = []) : step s = .next { s with schedule := rest } := by
  simp [step, performNext, nextAction, consumerAction, h, hi, hp, takeWord, perform, takeTurn]

theorem step_of_consumer_word {s : State} {rest : List Turn} {pick : Nat} {w : CmdWord} {ws : List CmdWord}
    (h : s.schedule = .consumer pick :: rest) (hi : s.pphase = .idle) (hp : s.consumerPort = w :: ws) :
    step s = issueCommand .consumer w { s with schedule := rest, consumerPort := ws } := by
  simp [step, performNext, nextAction, consumerAction, h, hi, hp, takeWord, perform, takeTurn]

theorem step_of_tested {s : State} {rest : List Turn} {pick : Nat} (h : s.schedule = .consumer pick :: rest)
    (hi : s.pphase = .tested) : step s = .next (pollClear { s with schedule := rest }) := by
  simp [step, performNext, nextAction, consumerAction, h, hi, takeWord, perform, takeTurn]

theorem step_of_sample {s : State} {rest : List Turn} {pick : Nat} {j : Fin 18}
    (h : s.schedule = .consumer pick :: rest) (hi : s.pphase = .gather) (hj : pickSlot pick s = some j) :
    step s = .next (pollSample j { s with schedule := rest }) := by
  simp [step, performNext, nextAction, consumerAction, h, hi, hj, takeWord, perform, takeTurn]

theorem step_of_commit {s : State} {rest : List Turn} {pick : Nat}
    (h : s.schedule = .consumer pick :: rest) (hi : s.pphase = .gather) (hj : pickSlot pick s = none) :
    step s = .next (pollCommit { s with schedule := rest }) := by
  simp [step, performNext, nextAction, consumerAction, h, hi, hj, takeWord, perform, takeTurn]

theorem step_of_rst {s : State} {rest : List Turn} (h : s.schedule = .rst :: rest) :
    step s = .next (applyReset { s with schedule := rest }) := by
  simp [step, performNext, nextAction, h, takeWord, perform, takeTurn]

theorem issueCommand_ok {p : Port} {w : CmdWord} {s : State} {i : Instr} (h : decode p w = .ok i) :
    issueCommand p w s = exec i s := by
  simp [issueCommand, h]

theorem issueCommand_error {p : Port} {w : CmdWord} {s : State} {r : RefuseReason} (h : decode p w = .error r) :
    issueCommand p w s = .next (refuse s) := by
  simp [issueCommand, h]

/-- What a command can do, issued at the producer's port or by an idle consumer. -/
inductive Issued (p : Port) (w : CmdWord) (s t : State) : Prop where
  | refused (r : RefuseReason) (hd : decode p w = .error r) (ht : t = refuse s)
  | rxByte (data : Byte) (ts : Timestamp) (cursor : Fin 21) (hp : p = .producer)
      (hd : decode p w = .ok (.rxByte data ts))
      (hc : cursor.val = if storeIndex ts s = 20 then 20 else (storeIndex ts s).val + 1)
      (ht : t = { s with
        buf := s.buf.set (storeIndex ts s).val data (storeIndex ts s).isLt
        cursor := cursor
        ready := if storeIndex ts s = 20 then true else s.ready
        tLast := ts })
  | pollNone (hp : p = .consumer) (hd : decode p w = .ok .poll) (hr : s.ready = false)
      (ht : t = respond (.pollNew false) s)
  | pollTested (hp : p = .consumer) (hd : decode p w = .ok .poll) (ha : s.cfg.pollAtomic = false) (hr : s.ready = true)
      (ht : t = { s with pphase := .tested })
  | pollTrue (hp : p = .consumer) (hd : decode p w = .ok .poll) (ha : s.cfg.pollAtomic = true) (hr : s.ready = true)
      (hv : valid s.buf[0] s.buf[19] = true)
      (ht : t = respond (.pollNew true) (chCommit (channelsOf (snapshot s)) (clearReady s)))
  | pollFalse (hp : p = .consumer) (hd : decode p w = .ok .poll) (ha : s.cfg.pollAtomic = true) (hr : s.ready = true)
      (hv : valid s.buf[0] s.buf[19] = false) (ht : t = respond (.pollNew false) (clearReady s))
  | read (idx : Byte) (hp : p = .consumer) (hd : decode p w = .ok (.read idx))
      (ht : t = respond (.rdValue (muxValue idx s)) s)

theorem issueCommand_cases {p : Port} {w : CmdWord} {s t : State} (hi : p = .consumer → s.pphase = .idle)
    (h : issueCommand p w s = .next t) : Issued p w s t := by
  cases hd : decode p w with
  | error r => rw [issueCommand_error hd] at h; exact .refused r hd (Host.Outcome.next.inj h).symm
  | ok i =>
    rw [issueCommand_ok hd] at h
    cases p with
    | producer =>
      obtain ⟨data, ts, rfl⟩ := decode_producer_cases hd
      obtain ⟨u, hu, he, hc⟩ := execRxByte_eq data ts s
      rw [exec, hu] at h
      cases h
      exact .rxByte data ts t.cursor rfl hd hc he
    | consumer =>
      obtain rfl | ⟨idx, rfl⟩ := decode_consumer_cases hd
      · rw [exec, execPoll_idle (hi rfl)] at h
        have h := Host.Outcome.next.inj h
        cases ha : s.cfg.pollAtomic <;> simp only [ha, if_true, Bool.false_eq_true, if_false] at h <;> subst h
        · obtain ⟨hr, e⟩ | ⟨hr, e⟩ := pollTest_cases s
          · exact .pollNone rfl hd hr e
          · exact .pollTested rfl hd ha hr e
        · obtain ⟨hr, e⟩ | ⟨hr, hv, e⟩ | ⟨hr, hv, e⟩ := pollWhole_cases s
          · exact .pollNone rfl hd hr e
          · exact .pollTrue rfl hd ha hr hv e
          · exact .pollFalse rfl hd ha hr hv e
      · rw [exec, execRead_idle idx (hi rfl)] at h
        exact .read idx rfl hd (Host.Outcome.next.inj h).symm

/-- Everything a step can do. -/
inductive Stepped (s t : State) : Prop where
  | noTurn (hs : s.schedule = []) (ha : nextAction s = .none) (ht : t = s)
  | producerSilent (rest : List Turn) (hs : s.schedule = .producer :: rest) (hp : s.producerPort = [])
      (ha : nextAction s = .none) (ht : t = { s with schedule := rest })
  | producerWord (rest : List Turn) (w : CmdWord) (ws : List CmdWord) (hs : s.schedule = .producer :: rest)
      (hp : s.producerPort = w :: ws) (ha : nextAction s = .issue .producer w)
      (ht : Issued .producer w { s with schedule := rest, producerPort := ws } t)
  | consumerSilent (pick : Nat) (rest : List Turn) (hs : s.schedule = .consumer pick :: rest) (hi : s.pphase = .idle)
      (hp : s.consumerPort = []) (ha : nextAction s = .none) (ht : t = { s with schedule := rest })
  | consumerWord (pick : Nat) (rest : List Turn) (w : CmdWord) (ws : List CmdWord)
      (hs : s.schedule = .consumer pick :: rest) (hi : s.pphase = .idle) (hp : s.consumerPort = w :: ws)
      (ha : nextAction s = .issue .consumer w)
      (ht : Issued .consumer w { s with schedule := rest, consumerPort := ws } t)
  | clear (pick : Nat) (rest : List Turn) (hs : s.schedule = .consumer pick :: rest) (hi : s.pphase = .tested)
      (ha : nextAction s = .clear) (ht : t = pollClear { s with schedule := rest })
  | sample (pick : Nat) (rest : List Turn) (j : Fin 18) (hs : s.schedule = .consumer pick :: rest)
      (hi : s.pphase = .gather) (hj : pickSlot pick s = some j) (ha : nextAction s = .sample j)
      (ht : t = pollSample j { s with schedule := rest })
  | commitTrue (pick : Nat) (rest : List Turn) (hs : s.schedule = .consumer pick :: rest) (hi : s.pphase = .gather)
      (hj : pendingSlots s = []) (ha : nextAction s = .commit)
      (hv : valid (gathered s)[syncSlot] (gathered s)[markSlot] = true)
      (ht : t = endPoll (respond (.pollNew true) (chCommit (channelsOf (gathered s)) { s with schedule := rest })))
  | commitFalse (pick : Nat) (rest : List Turn) (hs : s.schedule = .consumer pick :: rest) (hi : s.pphase = .gather)
      (hj : pendingSlots s = []) (ha : nextAction s = .commit)
      (hv : valid (gathered s)[syncSlot] (gathered s)[markSlot] = false)
      (ht : t = endPoll (respond (.pollNew false) { s with schedule := rest }))
  | rst (rest : List Turn) (hs : s.schedule = .rst :: rest) (ha : nextAction s = .reset)
      (ht : t = applyReset { s with schedule := rest })

theorem step_cases {s t : State} (h : step s = .next t) : Stepped s t := by
  match hs : s.schedule with
  | [] => rw [step_of_no_turn hs] at h; exact .noTurn hs (by simp [nextAction, hs]) (Host.Outcome.next.inj h).symm
  | .producer :: rest =>
    match hp : s.producerPort with
    | [] =>
      rw [step_of_producer_silent hs hp] at h
      exact .producerSilent rest hs hp (by simp [nextAction, producerAction, hs, hp]) (Host.Outcome.next.inj h).symm
    | w :: ws =>
      rw [step_of_producer_word hs hp] at h
      exact .producerWord rest w ws hs hp (by simp [nextAction, producerAction, hs, hp])
        (issueCommand_cases (by simp) h)
  | .consumer pick :: rest =>
    cases hi : s.pphase with
    | idle =>
      match hp : s.consumerPort with
      | [] =>
        rw [step_of_consumer_silent hs hi hp] at h
        exact .consumerSilent pick rest hs hi hp (by simp [nextAction, consumerAction, hs, hi, hp]) (Host.Outcome.next.inj h).symm
      | w :: ws =>
        rw [step_of_consumer_word hs hi hp] at h
        exact .consumerWord pick rest w ws hs hi hp (by simp [nextAction, consumerAction, hs, hi, hp])
          (issueCommand_cases (fun _ => hi) h)
    | tested =>
      rw [step_of_tested hs hi] at h
      exact .clear pick rest hs hi (by simp [nextAction, consumerAction, hs, hi]) (Host.Outcome.next.inj h).symm
    | gather =>
      cases hj : pickSlot pick s with
      | some j =>
        rw [step_of_sample hs hi hj] at h
        exact .sample pick rest j hs hi hj (by simp [nextAction, consumerAction, hs, hi, hj]) (Host.Outcome.next.inj h).symm
      | none =>
        rw [step_of_commit hs hi hj] at h
        have ha : nextAction s = .commit := by simp [nextAction, consumerAction, hs, hi, hj]
        have hn := pickSlot_eq_none.mp hj
        have ht := (Host.Outcome.next.inj h).symm
        obtain ⟨hv, e⟩ | ⟨hv, e⟩ := pollCommit_cases { s with schedule := rest }
        · exact .commitTrue pick rest hs hi hn ha hv (ht.trans e)
        · exact .commitFalse pick rest hs hi hn ha hv (ht.trans e)
  | .rst :: rest =>
    rw [step_of_rst hs] at h
    exact .rst rest hs (by simp [nextAction, hs]) (Host.Outcome.next.inj h).symm

/-! ### Runs -/

@[simp] theorem run_zero (s : State) : run 0 s = .next s := rfl

theorem run_succ {s t : State} (n : Nat) (h : step s = .next t) : run (n + 1) s = run n t := by
  have : Sys2Proof.core.step s = .next t := h
  simp only [run, Host.Core.run, this]; rfl

theorem run_one (s : State) : run 1 s = step s := by
  have : Sys2Proof.core.step s = step s := rfl
  simp only [run, Host.Core.run, this]
  cases step s <;> rfl

theorem run_add {s t : State} (m n : Nat) (h : run m s = .next t) : run (m + n) s = run n t := by
  induction m generalizing s with
  | zero => cases h; simp
  | succ m ih =>
    have e : m + 1 + n = m + n + 1 := by omega
    match hs : step s with
    | .next u =>
      rw [run_succ m hs] at h
      rw [e, run_succ (m + n) hs, ih h]
    | .fault r =>
      have hs' : Sys2Proof.core.step s = .fault r := hs
      simp [run, Host.Core.run, hs'] at h
    | .refused r =>
      have hs' : Sys2Proof.core.step s = .refused r := hs
      simp [run, Host.Core.run, hs'] at h

end Sys2Proof.Machine
end

