-- ==== Sys2Proof/Tests/Slice0.lean ====
section
/-! SUPPORT. The model's own tests. Expected results come from `95_test_vectors.md` (vector ids in the comments) or by
hand from the rule cited. The witnesses show, for each statement with hypotheses, operands and a state that meet them. -/

namespace Sys2Proof.Tests

open Sys2Proof Sys2Proof.Machine

/-! ## Well-formedness: each check refuses an ill-formed term -/

theorem test_reserved_op_ill_formed : Command.wellFormed { op := 3, a8 := 0, ts := 0 } = false := by decide
theorem test_poll_a8_ill_formed : Command.wellFormed { op := 1, a8 := 1, ts := 0 } = false := by decide
theorem test_poll_ts_ill_formed : Command.wellFormed { op := 1, a8 := 0, ts := 1 } = false := by decide
theorem test_read_ts_ill_formed : Command.wellFormed { op := 2, a8 := 7, ts := 1 } = false := by decide
theorem test_rx_on_consumer_ill_formed : Instr.wellFormed .consumer (.rxByte 0xA8 10000) = false := by decide
theorem test_poll_on_producer_ill_formed : Instr.wellFormed .producer .poll = false := by decide
theorem test_read_on_producer_ill_formed : Instr.wellFormed .producer (.read 0) = false := by decide
theorem test_well_formed_command : Command.wellFormed { op := 2, a8 := 0xFF, ts := 0 } = true := by decide

/-! ## Decoding: words written out field by field from R61 to R65 -/

/-- R63, V-ENC-1: op 00, data 0xA8, ts 10000. -/
theorem test_decode_rx : decode .producer
    0b00_10101000_00000000000000000010011100010000#42 = .ok (.rxByte 0xA8 10000) := by decide
/-- R64, V-ENC-4: op 01, then 40 zero bits. -/
theorem test_decode_poll : decode .consumer
    0b01_00000000_00000000000000000000000000000000#42 = .ok .poll := by decide
/-- R65, V-ENC-7: op 10, idx 7, then 32 zero bits. -/
theorem test_decode_read : decode .consumer
    0b10_00000111_00000000000000000000000000000000#42 = .ok (.read 7) := by decide
/-- V-ENC-5, V-ENC-9, V-ENC-10, V-ENC-14: the refusals, by name. -/
theorem test_decode_refusals :
    decode .consumer 0x10000000001#42 = .error .mustBeZero ∧ decode .consumer 0x20000000001#42 = .error .mustBeZero ∧
    decode .producer 0x30000000000#42 = .error .reservedOp ∧ decode .producer 0x20000000000#42 = .error .wrongPort := by
  decide
theorem test_decode_table_words :
    decodeTableWord 48 0x0A800002710 = some (.rxByte 0xA8 10000) ∧ decodeTableWord 48 0x10000000000 = some .poll ∧
    decodeTableWord 48 0x2FF00000000 = some (.read 255) ∧ decodeTableWord 48 0x10100000000 = none ∧
    decodeTableWord 48 0x40000000000 = none := by decide

/-! ## Small states -/

/-- The frame F_A of `95_test_vectors.md` section 2.5. -/
def frameA : Vector Byte 21 :=
  #v[0xA8, 0x00, 0x00, 0x06, 0x40, 0x23, 0x00, 0x19, 0x00, 0x25, 0x80, 0x32, 0x00, 0x3B, 0x60, 0x00, 0x00, 0xFF, 0xFF,
    0x00, 0x00]

/-- F_A received and pending. -/
def pendingA (cfg : Config) : State :=
  { State.start cfg with buf := frameA, cursor := 20, ready := true, tLast := 12000 }

/-- A state whose port holds one word, with that agent's turn next. -/
def presented (p : Port) (w : CmdWord) (s : State) : State := presentAt p w s

/-- F_A pending, with a POLL that has taken its TEST. -/
def testedA : State := { pendingA Config.baseline with pphase := .tested, schedule := [.consumer 0] }

/-- A POLL with every byte of F_A sampled but one slot's. -/
def gatherA (missing : Option (Fin 18)) : State :=
  { pendingA Config.baseline with
    ready := false, pphase := .gather, schedule := [.consumer 0]
    smp := Vector.ofFn fun j => if missing = some j then none else some frameA[slotIndex j] }

/-- What a test reads of an outcome. -/
def holdsOfNext (o : Host.Outcome State Fault Refusal) (f : State → Bool) : Bool :=
  match o with
  | .next t => f t
  | _ => false

/-! ## One step of each operation -/

/-- V-RX-3: a gap of 5001 resynchronizes. -/
theorem test_rx_resync : holdsOfNext
    (exec (.rxByte 0x22 6001) { State.reset with cursor := 5, tLast := 1000 })
    (fun t => t.cursor == 1 && t.tLast == 6001 && t.ready == false && t.buf[0] == 0x22 && t.buf[5] == 0x00) = true := by
  decide
/-- V-RX-6: a 22nd byte overwrites index 20, and `ready` is set again. -/
theorem test_rx_holds_at_twenty : holdsOfNext
    (exec (.rxByte 0x55 1100) { State.reset with cursor := 20, tLast := 1000, ready := true })
    (fun t => t.cursor == 20 && t.ready && t.buf[20] == 0x55) = true := by decide
/-- V-POLL-1, as one step of the atomic variant. -/
theorem test_poll_atomic : holdsOfNext (exec .poll (pendingA Config.hardened))
    (fun t => t.ready == false && t.responses == [.pollNew true] &&
      t.ch == #v[0xFF83, 0x0401, 0x0271, 0x0465, 0x0659, 0x07D0, 0xFE89, 0x2688]) = true := by decide
/-- V-POLL-4: a wrong marker byte consumes the frame and keeps the table. -/
theorem test_poll_wrong_marker : holdsOfNext
    (exec .poll { pendingA Config.hardened with buf := frameA.set 19 0x01, ch := Vector.replicate 8 5 })
    (fun t => t.ready == false && t.responses == [.pollNew false] && t.ch == Vector.replicate 8 5) = true := by decide
/-- V-READ-1: READ 0 returns 0xFF83. -/
theorem test_read_value : holdsOfNext (exec (.read 0) { State.reset with ch := resetCh.set 0 0xFF83 })
    (fun t => t.responses == [.rdValue 0xFF83]) = true := by decide
/-- V-READ-2: READ 8 returns the sentinel. -/
theorem test_read_sentinel : holdsOfNext (exec (.read 8) { State.reset with ch := Vector.replicate 8 7 })
    (fun t => t.responses == [.rdValue 0]) = true := by decide

/-- V-SC-2, V-SC-5, V-SC-7, V-SC-11, V-SC-24. -/
theorem test_scalar :
    scale 1 = 0xFE8A ∧ scale 1600 = 0xFF83 ∧ scale 2394 = 0 ∧ scale 2407 = 1 ∧ scale 65535 = 0x2688 := by decide
/-- V-VAL-1, V-VAL-2, V-VAL-6, V-VAL-8. -/
theorem test_validator :
    valid 0xA8 0x00 = true ∧ valid 0xA8 0x01 = false ∧ valid 0x28 0x00 = false ∧ valid 0x00 0xA8 = false := by decide

/-- A presented table word is run as the first step after reset. -/
theorem test_presented_rx : holdsOfNext (step (State.reset.withFetchWord 48 0x0A800002710))
    (fun t => t.buf[0] == 0xA8 && t.cursor == 1 && t.tLast == 10000 && t.schedule == []) = true := by decide
theorem test_presented_poll : holdsOfNext (step (State.reset.withFetchWord 48 0x10000000000))
    (fun t => t.responses == [.pollNew false] && t.schedule == [] && t.consumerPort == []) = true := by decide
theorem test_presented_read : holdsOfNext (step (State.reset.withFetchWord 48 0x20700000000))
    (fun t => t.responses == [.rdValue 0] && t.refused == false) = true := by decide
/-- V-ENC-10: a reserved word sets the mark and nothing else. -/
theorem test_presented_reserved : holdsOfNext (step (State.reset.withFetchWord 48 0x30000000000))
    (fun t => t == { State.reset with refused := true }) = true := by decide

/-! ## Witnesses: the hypotheses of each statement can be met together -/

theorem witness_EncodeDecodeRoundTrip :
    Instr.wellFormed .producer (.rxByte 0xFF 0xFFFFFFFF) = true ∧ Instr.wellFormed .consumer .poll = true ∧
    Instr.wellFormed .consumer (.read 255) = true ∧ Instr.wellFormed .consumer (.rxByte 0 0) = false := by decide

theorem witness_DecodedWordIsItsEncoding : decode .consumer 0x2FF00000000#42 = .ok (.read 255) := by decide

theorem witness_DecoderFollowsOrder :
    (0x3FFFFFFFFFF#42).toNat / 2 ^ 40 = 3 ∧ (0x0FFFFFFFFFF#42).toNat / 2 ^ 40 = 0 ∧
    (0x1FFFFFFFFFF#42).toNat / 2 ^ 40 = 1 ∧ (0x1FFFFFFFFFF#42).toNat % 2 ^ 40 ≠ 0 ∧
    (0x2FF00000001#42).toNat / 2 ^ 40 = 2 ∧ (0x2FF00000001#42).toNat % 2 ^ 32 ≠ 0 ∧
    (0x10000000000#42).toNat / 2 ^ 40 = 1 ∧ (0x10000000000#42).toNat % 2 ^ 40 = 0 ∧
    (0x2FF00000000#42).toNat / 2 ^ 40 = 2 ∧ (0x2FF00000000#42).toNat % 2 ^ 32 = 0 := by decide

theorem witness_EncodingsMatchMasks : 8 ≤ (8 : Byte).toNat ∧ State.reset.pphase = .idle := by decide

theorem witness_StepRunsDecodedCommand_producer :
    let s := presented .producer 0x0A800002710#42 State.reset
    s.schedule = .producer :: [] ∧ s.producerPort = 0x0A800002710#42 :: [] ∧
      decode .producer 0x0A800002710#42 = .ok (.rxByte 0xA8 10000) := by decide

theorem witness_StepRunsDecodedCommand_consumer :
    let s := presented .consumer 0x10000000000#42 State.reset
    s.schedule = .consumer 0 :: [] ∧ s.pphase = .idle ∧ s.consumerPort = 0x10000000000#42 :: [] ∧
      decode .consumer 0x10000000000#42 = .ok .poll := by decide

theorem witness_PresentedWordIsRunNext :
    decodeTableWord 48 0x0FFFFFFFFFF = some (.rxByte 0xFF 0xFFFFFFFF) ∧ decodeTableWord 48 0x2FF00000000 = some (.read 255) ∧
      decodeTableWord 48 0x10000000000 = some .poll := by decide

theorem witness_RefusedCommandOnlySetsMark_producer :
    let s := presented .producer 0x10000000000#42 State.reset
    decode .producer 0x10000000000#42 = .error .wrongPort ∧ s.schedule = .producer :: [] ∧
      s.producerPort = 0x10000000000#42 :: [] := by decide

theorem witness_RefusedCommandOnlySetsMark_consumer :
    let s := presented .consumer 0x30000000000#42 State.reset
    decode .consumer 0x30000000000#42 = .error .reservedOp ∧ s.schedule = .consumer 0 :: [] ∧ s.pphase = .idle ∧
      s.consumerPort = 0x30000000000#42 :: [] := by decide

theorem witness_RefusedMarkIsSticky :
    ∃ t, step (presented .consumer 0x10000000001#42 State.reset) = .next t ∧ t.refused = true := ⟨_, rfl, by decide⟩

theorem witness_ParametersNeverChange : ∃ t, step testedA = .next t ∧ t.cfg = Config.baseline := ⟨_, rfl, by decide⟩

theorem witness_AgentsWriteOnlyTheirOwnState_producer :
    ∃ t, step (presented .producer 0x0A800002710#42 State.reset) = .next t ∧
      (presented .producer 0x0A800002710#42 State.reset).schedule = .producer :: [] := ⟨_, rfl, by decide⟩

theorem witness_AgentsWriteOnlyTheirOwnState_consumer :
    ∃ t, step testedA = .next t ∧ testedA.schedule = .consumer 0 :: [] := ⟨_, rfl, by decide⟩

theorem witness_GapIsModularElapsedTime : (4294967295 : Nat) < 2 ^ 32 := by decide

/-- Both sides of the threshold, at 5000 and 5001, and the rule's example. -/
theorem witness_RxByteResult :
    storeIndex 6000 { State.reset with cursor := 5, tLast := 1000 } = 5 ∧
    storeIndex 6001 { State.reset with cursor := 5, tLast := 1000 } = 0 ∧
    ({ State.reset with cursor := 20, tLast := 1000 } : State).ready = false := by decide

theorem witness_RxByteFrame :
    (∃ t, exec (.rxByte 0x22 6001) { State.reset with cursor := 5, tLast := 1000 } = .next t) ∧
    5000 < (gap 6001 1000).toNat ∧ (gap 6000 1000).toNat ≤ 5000 ∧
    (1 : Fin 21) ≠ storeIndex 6001 { State.reset with cursor := 5, tLast := 1000 } := ⟨⟨_, rfl⟩, by decide⟩

theorem witness_RxByteFrameFull :
    storeIndex 100 { State.reset with cursor := 20 } = 20 ∧ storeIndex 100 { State.reset with cursor := 19 } ≠ 20 := by
  decide

theorem witness_ReceiveIsNeverHeld :
    let s := { testedA with schedule := [.producer], producerPort := [encode (.rxByte 0x77 12100)] }
    s.schedule = .producer :: [] ∧ s.producerPort = encode (.rxByte 0x77 12100) :: [] ∧ s.pphase ≠ .idle := by decide

theorem witness_CursorRisesToTwentyWithoutGaps :
    GapsWithin State.reset.tLast [(0x11, 5000), (0x22, 10000), (0x33, 10000)] :=
  ⟨by decide, by decide, by decide, trivial⟩

/-- From reset, and from the middle of a frame after a gap. -/
theorem witness_AlignedFrameIsReceived :
    (List.replicate 20 ((0x00 : Byte), (10000 : Timestamp))).length = 20 ∧ State.reset.cursor = 0 ∧
    5000 < (gap 10000 ({ State.reset with cursor := 7, tLast := 4999 } : State).tLast).toNat ∧
    GapsWithin 10000 (List.replicate 20 (0x00, 10000)) := by
  refine ⟨by decide, by decide, by decide, ?_⟩
  simp only [List.replicate, GapsWithin, and_true]
  decide

theorem witness_ReadyMeansWholeFrameWritten_base : State.reset.cursor = 0 := by decide

/-- The store at index 20 with the 20 indices below it written. -/
theorem witness_ReadyMeansWholeFrameWritten_step :
    let s := presented .producer (encode (.rxByte 0x44 1100)) { State.reset with cursor := 20, tLast := 1000 }
    (∀ k : Fin 21, k.val < s.cursor.val → (fun k : Fin 21 => decide (k.val < 20)) k = true) ∧ s.ready = false ∧
      holdsOfNext (step s) (fun t => t.ready) = true := by decide

theorem witness_HiddenBufferDifferenceStaysHidden_base :
    State.reset.cursor = 0 ∧ State.reset.ready = false ∧ State.reset.pphase = .idle := by decide

/-- Reset buffers that differ everywhere, and a byte about to arrive. -/
theorem witness_HiddenBufferDifferenceStaysHidden_step :
    let s := presented .producer (encode (.rxByte 0xA8 100)) State.reset
    BufDifferenceHidden s { s with buf := Vector.replicate 21 0xFF } ∧ ∃ s', step s = .next s' :=
  ⟨⟨rfl, .inr ⟨rfl, rfl, by decide⟩⟩, _, rfl⟩

theorem witness_UnsampledBytesHaveNoEffect :
    let s := presented .consumer (encode .poll) (pendingA Config.hardened)
    SameOnSampledBytes s { s with buf := ((frameA.set 1 0xFF).set 2 0xFF).set 20 0xFF } ∧ ∃ s', step s = .next s' :=
  ⟨⟨rfl, by decide⟩, _, rfl⟩

theorem witness_ResetTimestampIsUnobservable :
    State.reset.cursor = 0 ∧ ∃ s', step (presented .producer (encode (.rxByte 0x01 3000)) State.reset) = .next s' :=
  ⟨rfl, _, rfl⟩

theorem witness_PollTestStep :
    State.reset.cfg.pollAtomic = false ∧ State.reset.pphase = .idle ∧ State.reset.ready = false ∧
    (pendingA Config.baseline).cfg.pollAtomic = false ∧ (pendingA Config.baseline).pphase = .idle ∧
    (pendingA Config.baseline).ready = true := by decide

theorem witness_PollClearStep : testedA.schedule = .consumer 0 :: [] ∧ testedA.pphase = .tested := by decide

theorem witness_SampleOrderIsFree :
    (gatherA (some 17)).pphase = .gather ∧ (gatherA (some 17)).smp[(17 : Fin 18)] = none ∧
    (gatherA (some 17)).schedule = .consumer 0 :: [] ∧ (gatherA (some 0)).smp[(0 : Fin 18)] = none := by decide

/-- The low byte of channel 1 (index 6, slot 4) arrives late, with every other sample taken. -/
theorem witness_RacedSampleSeesLateStore :
    let s := { gatherA (some 4) with cursor := 6, producerPort := [encode (.rxByte 0x10 12100)] }
    let v : Vector Byte 18 := (Vector.ofFn fun j => frameA[slotIndex j]).set 4 0x10
    s.pphase = .gather ∧ s.smp[(4 : Fin 18)] = none ∧ storeIndex 12100 s = slotIndex 4 ∧
    s.producerPort = encode (.rxByte 0x10 12100) :: [] ∧ v[(4 : Fin 18)] = 0x10 ∧
    (∀ k : Fin 18, k ≠ 4 → s.smp[k] = some v[k]) ∧ v[0] = 0xA8 ∧ v[17] = 0x00 := by decide

theorem witness_PollCommitStep :
    let v : Vector Byte 18 := Vector.ofFn fun j => frameA[slotIndex j]
    (gatherA none).schedule = .consumer 0 :: [] ∧ (gatherA none).pphase = .gather ∧
    (∀ j : Fin 18, (gatherA none).smp[j] = some v[j]) ∧ v[0] = 0xA8 ∧ v[17] = 0x00 := by decide

theorem witness_AtomicPollResult :
    (pendingA Config.hardened).cfg.pollAtomic = true ∧ (pendingA Config.hardened).pphase = .idle ∧
    (pendingA Config.hardened).ready = true ∧ frameA[0] = 0xA8 ∧ frameA[19] = 0x00 := by decide

theorem witness_UninterruptedPollDecodesBuffer :
    let s := { pendingA Config.baseline with
      consumerPort := [encode .poll], schedule := consumerPicks (List.replicate 21 5) }
    s.cfg.pollAtomic = false ∧ s.pphase = .idle ∧ s.ready = true ∧ s.consumerPort = encode .poll :: [] ∧
    (List.replicate 21 5).length = 21 ∧ s.schedule = consumerPicks (List.replicate 21 5) ++ [] := by decide

/-- A POLL of the atomic variant about to be taken. -/
theorem witness_AtomicStepIsBaselineBlock :
    let s := presented .consumer (encode .poll) (pendingA Config.hardened)
    s.cfg.pollAtomic = true ∧ s.pphase = .idle ∧ s.smp = emptySmp ∧ s.schedule = .consumer 0 :: [] ∧
      ∃ t, step s = .next t := ⟨rfl, rfl, rfl, rfl, _, rfl⟩

theorem witness_AtomicRunIsBaselineRun :
    let s := presented .consumer (encode .poll) (pendingA Config.hardened)
    s.cfg.pollAtomic = true ∧ s.pphase = .idle ∧ s.smp = emptySmp ∧ ∃ t, run 2 s = .next t := ⟨rfl, rfl, rfl, _, rfl⟩

/-- A failing atomic POLL with a wrong marker, a POLL with no frame, and a failing commit. -/
theorem witness_FailedPollKeepsChannels :
    (∃ t, step (presented .consumer (encode .poll) State.reset) = .next t ∧ t.responses = .pollNew false :: []) ∧
    (∃ t, step (presented .consumer (encode .poll) { pendingA Config.hardened with buf := frameA.set 19 1 }) = .next t ∧
      t.responses = .pollNew false :: []) ∧
    (∃ t, step { gatherA none with smp := (gatherA none).smp.set 17 (some 1) } = .next t ∧
      t.responses = .pollNew false :: []) := by
  refine ⟨⟨_, rfl, ?_⟩, ⟨_, rfl, ?_⟩, ⟨_, rfl, ?_⟩⟩ <;> decide

theorem witness_ChannelsReplacedOnlyAsFullSet :
    ∃ t, step (gatherA none) = .next t ∧ t.responses = .pollNew true :: (gatherA none).responses ∧
      t.ch ≠ (gatherA none).ch := ⟨_, rfl, by decide, by decide⟩

/-- The last sample and the commit, with an RX_BYTE's turn between. -/
theorem witness_PollEndsInBoundedSteps :
    let turns := [.consumer 0, .producer, .consumer 3]
    let s := { gatherA (some 9) with schedule := turns }
    s.schedule = turns ++ [] ∧ (∀ u ∈ turns, u ≠ .rst) ∧ consumerTurns turns = pollStepsLeft s := by decide

/-- In the atomic variant, and below in the baseline: with a frame pending (22 turns) and with none (2 turns). -/
theorem witness_SecondPollReturnsFalse :
    let s := { pendingA Config.hardened with
      consumerPort := [encode .poll, encode .poll], schedule := consumerPicks [0, 0] }
    s.pphase = .idle ∧ s.consumerPort = encode .poll :: encode .poll :: [] ∧
    [0, 0].length = (if s.cfg.pollAtomic = true ∨ s.ready = false then 2 else 22) ∧
    s.schedule = consumerPicks [0, 0] ++ [] := by decide

theorem witness_SecondPollReturnsFalse_baseline :
    let s := { pendingA Config.baseline with
      consumerPort := [encode .poll, encode .poll], schedule := consumerPicks (List.replicate 22 3) }
    s.pphase = .idle ∧ s.consumerPort = encode .poll :: encode .poll :: [] ∧
    (List.replicate 22 3).length = (if s.cfg.pollAtomic = true ∨ s.ready = false then 2 else 22) ∧
    s.schedule = consumerPicks (List.replicate 22 3) ++ [] := by decide

theorem witness_SecondPollReturnsFalse_not_ready :
    let s := { State.reset with consumerPort := [encode .poll, encode .poll], schedule := consumerPicks [0, 0] }
    s.pphase = .idle ∧ s.consumerPort = encode .poll :: encode .poll :: [] ∧
    [0, 0].length = (if s.cfg.pollAtomic = true ∨ s.ready = false then 2 else 22) ∧
    s.schedule = consumerPicks [0, 0] ++ [] := by decide

theorem witness_NotificationLostBeforeClear :
    let s := { testedA with producerPort := [encode (.rxByte 0x77 12100)] }
    s.pphase = .tested ∧ storeIndex 12100 s = 20 ∧ s.producerPort = encode (.rxByte 0x77 12100) :: [] := by decide

theorem witness_MixedFrameDecodedAfterGap :
    (pendingA Config.hardened).cfg.pollAtomic = true ∧ (pendingA Config.hardened).pphase = .idle ∧
    (pendingA Config.hardened).ready = true ∧ 5000 < (gap 17001 (pendingA Config.hardened).tLast).toNat ∧
    (pendingA Config.hardened).buf[19] = 0x00 := by decide

theorem witness_ReadResult : State.reset.pphase = .idle := by decide

theorem witness_ReadSentinel : 8 ≤ (8 : Byte).toNat ∧ 8 ≤ (255 : Byte).toNat ∧ State.reset.pphase = .idle := by decide

theorem witness_ReadUnaffectedByReceiveAndRead :
    (∀ i ∈ [Instr.rxByte 0xA8 100, Instr.read 3], i ≠ .poll) ∧ State.reset.pphase = .idle ∧
      ∃ t, execAll [Instr.rxByte 0xA8 100, Instr.read 3] State.reset = .next t := ⟨by decide, rfl, _, rfl⟩

theorem witness_ConsumerIssuesOnlyWhenIdle :
    nextAction (presented .consumer (encode (.read 0)) State.reset) = .issue .consumer (encode (.read 0)) ∧
    testedA.schedule = .consumer 0 :: [] ∧ testedA.pphase ≠ .idle ∧ ∃ t, step testedA = .next t :=
  ⟨by decide, by decide, by decide, _, rfl⟩

theorem witness_BusyConsumerOperationsRefused : testedA.pphase ≠ .idle := by decide

/-- Reset in the middle of a POLL, with the mark set (V-RST-2, V-RST-3). -/
theorem witness_ResetStep : ({ gatherA (some 3) with schedule := [.rst], refused := true } : State).schedule = .rst :: [] := by
  decide

theorem witness_StepKeepsInvariant : Inv testedA ∧ ∃ t, step testedA = .next t :=
  ⟨⟨fun _ => rfl, by decide, by decide, fun v hv => by cases hv⟩, _, rfl⟩

/-- The frame of program P1 waiting at the producer's port, a POLL and a READ at the consumer's. -/
theorem witness_FrameReceivedPolledAndRead :
    let r : Vector RawWord 8 := #v[1600, 8960, 6400, 9600, 12800, 15200, 0, 65535]
    let s : State := { State.reset with
      producerPort := (rxFrame 10000 100 (frameOfRaw r)).map encode
      consumerPort := [encode .poll, encode (.read 7)]
      schedule := List.replicate 21 .producer ++ consumerPicks (List.replicate 22 0) }
    frameOfRaw r = frameA ∧ s.pphase = .idle ∧ s.cursor = 0 ∧ 100 ≤ 5000 ∧
    s.producerPort = (rxFrame 10000 100 (frameOfRaw r)).map encode ++ [] ∧
    s.consumerPort = encode .poll :: encode (.read 7) :: [] ∧
    (List.replicate 22 0).length = (if s.cfg.pollAtomic = true then 2 else 22) ∧
    s.schedule = List.replicate 21 .producer ++ consumerPicks (List.replicate 22 0) ++ [] := by
  refine ⟨by decide, rfl, rfl, by decide, ?_, rfl, by decide, ?_⟩ <;> simp

/-- The same in the atomic variant, after a gap at cursor 7, at the largest spacing, with READ of the last index. -/
theorem witness_FrameReceivedPolledAndRead_atomic :
    let r : Vector RawWord 8 := #v[1600, 8960, 6400, 9600, 12800, 15200, 0, 65535]
    let s : State := { State.start Config.hardened with
      cursor := 7
      producerPort := (rxFrame 10000 5000 (frameOfRaw r)).map encode
      consumerPort := [encode .poll, encode (.read 255)]
      schedule := List.replicate 21 .producer ++ consumerPicks [0, 0] }
    s.pphase = .idle ∧ 5000 < (gap 10000 s.tLast).toNat ∧ 5000 ≤ 5000 ∧
    s.producerPort = (rxFrame 10000 5000 (frameOfRaw r)).map encode ++ [] ∧
    s.consumerPort = encode .poll :: encode (.read 255) :: [] ∧
    [0, 0].length = (if s.cfg.pollAtomic = true then 2 else 22) ∧
    s.schedule = List.replicate 21 .producer ++ consumerPicks [0, 0] ++ [] := by
  refine ⟨rfl, by decide, by decide, ?_, rfl, by decide, ?_⟩ <;> simp

end Sys2Proof.Tests
end

section
/-! SUPPORT. The reset values (R33), the sticky mark (R27) and who writes what (R32): the family of `10_state.md`. -/

namespace Sys2Proof.Machine

/-! ### The reset values, element by element -/

@[simp] theorem resetBuf_getElem (k : Fin 21) : resetBuf[k] = 0x00 := by simp [resetBuf]

@[simp] theorem resetCh_getElem (i : Fin 8) : resetCh[i] = 0 := by simp [resetCh]

@[simp] theorem emptySmp_getElem (j : Fin 18) : emptySmp[j] = none := by simp [emptySmp]

/-- Settles O49: the start state holds R33's values field by field, and those of the three vectors element by element. -/
theorem resetStateValues : Obligations.ResetStateValues :=
  ⟨resetBuf_getElem, rfl, rfl, resetCh_getElem, rfl, rfl, emptySmp_getElem, rfl⟩

/-! ### The sticky mark -/

/-- A command sets the mark exactly when the decoder refuses it; one that decodes leaves the mark as it was. -/
theorem Issued.refused_iff {p : Port} {w : CmdWord} {s t : State} (h : Issued p w s t) :
    t.refused = true ↔ s.refused = true ∨ ∃ r, decode p w = .error r := by
  cases h with
  | refused r hd ht => simp [ht, hd]
  | rxByte _ _ _ _ hd _ ht | pollNone _ hd _ ht | pollTested _ hd _ _ ht | pollTrue _ hd _ _ _ ht
  | pollFalse _ hd _ _ _ ht | read _ _ hd ht => simp [ht, hd]

/-- A step that takes no command word, a reset among them, leaves the mark as it was. -/
theorem step_refused_of_no_command {s t : State} (h : step s = .next t) (hn : ∀ p w, nextAction s ≠ .issue p w) :
    t.refused = s.refused := by
  cases step_cases h with
  | producerWord _ w _ _ _ ha | consumerWord _ _ w _ _ _ _ ha => exact absurd ha (hn _ w)
  | noTurn _ _ ht | producerSilent _ _ _ _ ht | consumerSilent _ _ _ _ _ _ ht | clear _ _ _ _ _ ht
  | sample _ _ _ _ _ _ _ ht | commitTrue _ _ _ _ _ _ _ ht | commitFalse _ _ _ _ _ _ _ ht
  | rst _ _ _ ht => simp [ht]

/-- A step that takes a command word is that word issued, on a state whose mark is the one before the step. -/
theorem issued_of_step {s t : State} {p : Port} {w : CmdWord} (h : step s = .next t) (ha : nextAction s = .issue p w) :
    ∃ u : State, Issued p w u t ∧ u.refused = s.refused := by
  cases step_cases h with
  | producerWord _ _ _ _ _ ha' hi | consumerWord _ _ _ _ _ _ _ ha' hi =>
    cases ha.symm.trans ha'
    exact ⟨_, hi, rfl⟩
  | noTurn _ ha' | producerSilent _ _ _ ha' | consumerSilent _ _ _ _ _ ha' | clear _ _ _ _ ha'
  | sample _ _ _ _ _ _ ha' | commitTrue _ _ _ _ _ ha' | commitFalse _ _ _ _ _ ha' | rst _ _ ha' =>
    cases ha.symm.trans ha'

/-- Settles O9, by whether the step takes a command word: if it does, the mark is that word's refusal or the mark
before; if it does not, the mark is the one before, through a reset too. -/
theorem refusedMarkIsSticky : Obligations.RefusedMarkIsSticky := by
  intro s t h
  by_cases hw : ∃ p w, nextAction s = .issue p w
  · obtain ⟨p, w, ha⟩ := hw
    obtain ⟨u, hi, hu⟩ := issued_of_step h ha
    simp [hi.refused_iff, hu, ha]
  · have hn : ∀ p w, nextAction s ≠ .issue p w := fun p w ha => hw ⟨p, w, ha⟩
    simp [step_refused_of_no_command h hn, hn]

/-! ### Each agent's own state -/

/-- A command at the producer's port leaves the consumer's state and does not clear `ready`. -/
theorem Issued.producer_frame {w : CmdWord} {s t : State} (h : Issued .producer w s t) :
    t.ch = s.ch ∧ t.pphase = s.pphase ∧ t.smp = s.smp ∧ (s.ready = true → t.ready = true) := by
  cases h with
  | refused _ _ ht => simp [ht]
  | rxByte _ _ _ _ _ _ ht => simp +contextual [ht]
  | pollNone hp | pollTested hp | pollTrue hp | pollFalse hp | read _ hp => cases hp

/-- A command at the consumer's port leaves the producer's state and does not set `ready`. -/
theorem Issued.consumer_frame {w : CmdWord} {s t : State} (h : Issued .consumer w s t) :
    t.buf = s.buf ∧ t.cursor = s.cursor ∧ t.tLast = s.tLast ∧ (t.ready = true → s.ready = true) := by
  cases h with
  | rxByte _ _ _ hp => cases hp
  | refused _ _ ht | pollNone _ _ _ ht | pollTested _ _ _ _ ht | pollTrue _ _ _ _ _ ht | pollFalse _ _ _ _ _ ht
  | read _ _ _ ht => simp [ht]

/-- A producer's turn is silent or issues one command (R89). -/
theorem producer_turn_frame {s t : State} {rest : List Turn} (h : step s = .next t)
    (hs : s.schedule = .producer :: rest) :
    t.ch = s.ch ∧ t.pphase = s.pphase ∧ t.smp = s.smp ∧ (s.ready = true → t.ready = true) := by
  cases step_cases h with
  | producerSilent _ _ _ _ ht => simp [ht]
  | producerWord _ _ _ _ _ _ hi => exact hi.producer_frame
  | noTurn hs' | consumerSilent _ _ hs' | consumerWord _ _ _ _ hs' | clear _ _ hs' | sample _ _ _ hs'
  | commitTrue _ _ hs' | commitFalse _ _ hs' | rst _ hs' => cases hs.symm.trans hs'

/-- A consumer's turn is silent, issues one command or takes the next step of its POLL (R48); only CLEAR writes `ready`
among those steps. -/
theorem consumer_turn_frame {s t : State} {pick : Nat} {rest : List Turn} (h : step s = .next t)
    (hs : s.schedule = .consumer pick :: rest) :
    t.buf = s.buf ∧ t.cursor = s.cursor ∧ t.tLast = s.tLast ∧ (t.ready = true → s.ready = true) := by
  cases step_cases h with
  | consumerWord _ _ _ _ _ _ _ _ hi => exact hi.consumer_frame
  | consumerSilent _ _ _ _ _ _ ht | clear _ _ _ _ _ ht | sample _ _ _ _ _ _ _ ht | commitTrue _ _ _ _ _ _ _ ht
  | commitFalse _ _ _ _ _ _ _ ht => simp [ht]
  | noTurn hs' | producerSilent _ hs' | producerWord _ _ _ hs' | rst _ hs' => cases hs.symm.trans hs'

/-- Settles O12: the frame of a producer's turn and the frame of a consumer's turn. -/
theorem agentsWriteOnlyTheirOwnState : Obligations.AgentsWriteOnlyTheirOwnState :=
  fun _ _ _ _ h => ⟨producer_turn_frame h, consumer_turn_frame h⟩

end Sys2Proof.Machine
end

section
/-! SUPPORT. The decoder read as numbers (R67), as masks and matches (R63 to R65), and what a refusal does (R68, R69):
the family of `30_encoding.md`. -/

namespace Sys2Proof

/-! ### The fields of a command word as numbers -/

theorem fieldsOf_op_eq_iff {w : CmdWord} {op : BitVec 2} : (fieldsOf w).op = op ↔ w.toNat / 2 ^ 40 = op.toNat := by
  rw [← BitVec.toNat_inj, fieldsOf_op_toNat]

theorem fieldsOf_a8_eq_ofNat (w : CmdWord) : (fieldsOf w).a8 = BitVec.ofNat 8 (w.toNat / 2 ^ 32) := by
  rw [← BitVec.toNat_inj, fieldsOf_a8_toNat, BitVec.toNat_ofNat]

theorem fieldsOf_ts_eq_ofNat (w : CmdWord) : (fieldsOf w).ts = BitVec.ofNat 32 w.toNat := by
  rw [← BitVec.toNat_inj, fieldsOf_ts_toNat, BitVec.toNat_ofNat]

theorem fieldsOf_ts_eq_zero_iff {w : CmdWord} : (fieldsOf w).ts = 0 ↔ w.toNat % 2 ^ 32 = 0 := by
  rw [← BitVec.toNat_inj, fieldsOf_ts_toNat]
  rfl

/-- `a8` and `ts` together are bits 39 to 0 (R61). -/
theorem fieldsOf_a8_ts_eq_zero_iff {w : CmdWord} :
    ((fieldsOf w).a8 = 0 ∧ (fieldsOf w).ts = 0) ↔ w.toNat % 2 ^ 40 = 0 := by
  rw [fieldsOf_ts_eq_zero_iff, ← BitVec.toNat_inj, fieldsOf_a8_toNat]
  change _ = 0 ∧ _ ↔ _
  omega

theorem op_number_cases (w : CmdWord) :
    w.toNat / 2 ^ 40 = 0 ∨ w.toNat / 2 ^ 40 = 1 ∨ w.toNat / 2 ^ 40 = 2 ∨ w.toNat / 2 ^ 40 = 3 := by
  have := w.isLt
  omega

/-! ### The decoder on each value of bits 41 and 40 -/

theorem decode_of_number_zero {p : Port} {w : CmdWord} (h : w.toNat / 2 ^ 40 = 0) :
    decode p w = if p = .producer then
      .ok (.rxByte (BitVec.ofNat 8 (w.toNat / 2 ^ 32)) (BitVec.ofNat 32 w.toNat)) else .error .wrongPort := by
  rw [decode_op0 (fieldsOf_op_eq_iff.2 h), fieldsOf_a8_eq_ofNat, fieldsOf_ts_eq_ofNat]

theorem decode_of_number_one {p : Port} {w : CmdWord} (h : w.toNat / 2 ^ 40 = 1) :
    decode p w = if p = .consumer then
      if w.toNat % 2 ^ 40 = 0 then .ok .poll else .error .mustBeZero
      else .error .wrongPort := by
  simp only [decode_op1 (fieldsOf_op_eq_iff.2 h), fieldsOf_a8_ts_eq_zero_iff]

theorem decode_of_number_two {p : Port} {w : CmdWord} (h : w.toNat / 2 ^ 40 = 2) :
    decode p w = if p = .consumer then
      if w.toNat % 2 ^ 32 = 0 then .ok (.read (BitVec.ofNat 8 (w.toNat / 2 ^ 32))) else .error .mustBeZero
      else .error .wrongPort := by
  simp only [decode_op2 (fieldsOf_op_eq_iff.2 h), fieldsOf_ts_eq_zero_iff, fieldsOf_a8_eq_ofNat]

theorem decode_of_number_three {p : Port} {w : CmdWord} (h : w.toNat / 2 ^ 40 = 3) :
    decode p w = .error .reservedOp :=
  decode_op3 (fieldsOf_op_eq_iff.2 h)

/-- Settles O3: each clause is the decoder's equation at its `op` value, with the port and the must-be-zero test decided
by the clause's premises. -/
theorem decoderFollowsOrder : Obligations.DecoderFollowsOrder := by
  rintro p w _ rfl
  refine ⟨decode_of_number_three, ?_, ?_, ?_, ?_, ?_, ?_, ?_, ?_⟩
  · rintro h rfl; simp [decode_of_number_zero h]
  · rintro (h | h) rfl
    · simp [decode_of_number_one h]
    · simp [decode_of_number_two h]
  · rintro h rfl hz; rw [decode_of_number_one h, if_pos rfl, if_neg hz]
  · rintro h rfl hz; rw [decode_of_number_two h, if_pos rfl, if_neg hz]
  · rintro h rfl; rw [decode_of_number_zero h, if_pos rfl]
  · rintro h rfl hz; rw [decode_of_number_one h, if_pos rfl, if_pos hz]
  · rintro h rfl hz; rw [decode_of_number_two h, if_pos rfl, if_pos hz]
  · have := op_number_cases w
    omega

/-! ### Masks and matches -/

/-- A word is decoded to an operation exactly at the operation's port and when its fields are those the operation is
written with. -/
theorem decode_eq_ok_iff {p : Port} {w : CmdWord} {i : Instr} :
    decode p w = .ok i ↔ i.port = p ∧ fieldsOf w = commandOf i := by
  constructor
  · intro h
    obtain hop | hop | hop | hop := op_cases (fieldsOf w).op
    · rw [decode_op0 hop] at h
      split_ifs at h with hp
      cases h
      exact ⟨hp.symm, by simp [commandOf, ← hop]⟩
    · rw [decode_op1 hop] at h
      split_ifs at h with hp hz
      cases h
      obtain ⟨ha, ht⟩ := hz
      exact ⟨hp.symm, by simp [commandOf, ← hop, ← ha, ← ht]⟩
    · rw [decode_op2 hop] at h
      split_ifs at h with hp ht
      cases h
      exact ⟨hp.symm, by simp [commandOf, ← hop, ← ht]⟩
    · rw [decode_op3 hop] at h
      cases h
  · rintro ⟨rfl, h⟩
    cases i with
    | rxByte data ts => simp [decode_op0 (w := w) (by rw [h]; rfl), h, commandOf, Instr.port]
    | poll => simp [decode_op1 (w := w) (by rw [h]; rfl), h, commandOf, Instr.port]
    | read idx => simp [decode_op2 (w := w) (by rw [h]; rfl), h, commandOf, Instr.port]

/-- The encoder reaches every operation, whatever its operands. -/
theorem decode_encode (i : Instr) : decode i.port (encode i) = .ok i :=
  decode_eq_ok_iff.2 ⟨rfl, fieldsOf_encode i⟩

/-- A mask and match test, field by field. -/
theorem and_wordOf_eq_wordOf_iff {w : CmdWord} {mask pattern : Command} :
    w &&& wordOf mask = wordOf pattern ↔
      (⟨(fieldsOf w).op &&& mask.op, (fieldsOf w).a8 &&& mask.a8, (fieldsOf w).ts &&& mask.ts⟩ : Command) = pattern := by
  conv_lhs => rw [← wordOf_fieldsOf w]
  rw [wordOf_and, wordOf_inj]

/-- R63: `op` = 0, with every other bit free. -/
theorem rxByte_mask_iff {w : CmdWord} :
    w &&& 0x30000000000#42 = 0x00000000000#42 ↔
      decode .producer w = .ok (.rxByte (fieldsOf w).a8 (fieldsOf w).ts) := by
  change w &&& wordOf ⟨.allOnes 2, 0, 0⟩ = wordOf ⟨0, 0, 0⟩ ↔ _
  rw [and_wordOf_eq_wordOf_iff, decode_eq_ok_iff]
  obtain ⟨op, a8, ts⟩ := fieldsOf w
  simp [commandOf, Instr.port, -BitVec.reduceAllOnes]

/-- R64: `op` = 1, with every other bit 0. -/
theorem poll_mask_iff {w : CmdWord} :
    w &&& 0x3FFFFFFFFFF#42 = 0x10000000000#42 ↔ decode .consumer w = .ok .poll := by
  change w &&& wordOf ⟨.allOnes 2, .allOnes 8, .allOnes 32⟩ = wordOf ⟨1, 0, 0⟩ ↔ _
  rw [and_wordOf_eq_wordOf_iff, decode_eq_ok_iff]
  obtain ⟨op, a8, ts⟩ := fieldsOf w
  simp [commandOf, Instr.port, -BitVec.reduceAllOnes]

/-- R65: `op` = 2 and `ts` = 0, with `a8` free. -/
theorem read_mask_iff {w : CmdWord} :
    w &&& 0x300FFFFFFFF#42 = 0x20000000000#42 ↔ decode .consumer w = .ok (.read (fieldsOf w).a8) := by
  change w &&& wordOf ⟨.allOnes 2, 0, .allOnes 32⟩ = wordOf ⟨2, 0, 0⟩ ↔ _
  rw [and_wordOf_eq_wordOf_iff, decode_eq_ok_iff]
  obtain ⟨op, a8, ts⟩ := fieldsOf w
  simp [commandOf, Instr.port, -BitVec.reduceAllOnes]

end Sys2Proof

namespace Sys2Proof.Machine

/-- READ of an index the channel table does not have answers the sentinel 0 (R65, R131). -/
theorem exec_read_sentinel {idx : Byte} {s : State} (hidx : 8 ≤ idx.toNat) (hi : s.pphase = .idle) :
    exec (.read idx) s = .next (respond (.rdValue 0) s) := by
  have hv : muxValue idx s = 0 := by rw [muxValue_eq, dif_neg (by omega)]
  rw [← hv]
  exact execRead_idle idx hi

/-- Settles O4: the three mask lemmas, the encoder as the word that reaches every operand, and the sentinel of READ. -/
theorem encodingsMatchMasks : Obligations.EncodingsMatchMasks :=
  ⟨fun _ => ⟨rxByte_mask_iff, poll_mask_iff, read_mask_iff⟩,
    fun data ts => ⟨_, decode_encode (.rxByte data ts)⟩,
    fun idx => ⟨_, decode_encode (.read idx)⟩,
    fun _ _ => exec_read_sentinel⟩

/-! ### Refusals -/

/-- The refused words: the reserved ones, those with a must-be-zero field not zero, and those at the wrong port (R68,
R69). -/
theorem decode_refuses_iff {p : Port} {w : CmdWord} :
    (∃ r, decode p w = .error r) ↔
      w.toNat / 2 ^ 40 = 3 ∨
      (w.toNat / 2 ^ 40 = 1 ∧ w.toNat % 2 ^ 40 ≠ 0) ∨ (w.toNat / 2 ^ 40 = 2 ∧ w.toNat % 2 ^ 32 ≠ 0) ∨
      (w.toNat / 2 ^ 40 = 0 ∧ p = .consumer) ∨ ((w.toNat / 2 ^ 40 = 1 ∨ w.toNat / 2 ^ 40 = 2) ∧ p = .producer) := by
  obtain h | h | h | h := op_number_cases w
  · rw [decode_of_number_zero h, h]
    cases p <;> simp
  · rw [decode_of_number_one h, h]
    generalize w.toNat % 2 ^ 40 = low
    cases p
    · simp
    · by_cases hz : low = 0 <;> simp [hz]
  · rw [decode_of_number_two h, h]
    generalize w.toNat % 2 ^ 32 = low
    cases p
    · simp
    · by_cases hz : low = 0 <;> simp [hz]
  · rw [decode_of_number_three h, h]
    simp

/-- Settles O8: which words the decoder refuses, and then the step of either port's agent with such a word, which is
`refuse` on the state less the turn and the word. -/
theorem refusedCommandOnlySetsMark : Obligations.RefusedCommandOnlySetsMark := by
  refine fun p w => ⟨decode_refuses_iff, fun s ws pick rest r hr => ⟨?_, ?_⟩⟩
  · rintro rfl hs hw
    rw [step_of_producer_word hs hw, issueCommand_error hr]
    rfl
  · rintro rfl hs hi hw
    rw [step_of_consumer_word hs hi hw, issueCommand_error hr]
    rfl

end Sys2Proof.Machine
end

section
/-! SUPPORT. The gap detector (R81, R82) and what one RX_BYTE does (R80, R83 to R87, R89): the family of
`40_receive.md`. -/

namespace Sys2Proof.Machine

/-! ### The gap -/

/-- A true elapsed time below 2^32 is the gap, also when the clock wraps in between. -/
theorem gap_of_elapsed {t0 elapsed : Nat} (h : elapsed < 2 ^ 32) :
    (gap (BitVec.ofNat 32 (t0 + elapsed)) (BitVec.ofNat 32 t0)).toNat = elapsed := by
  rw [gap_toNat, BitVec.toNat_ofNat, BitVec.toNat_ofNat]
  omega

/-- Settles O13: the gap as a number, the detector's comparison on that number, and the elapsed time. -/
theorem gapIsModularElapsedTime : Obligations.GapIsModularElapsedTime :=
  ⟨fun ts tLast => ⟨gap_toNat ts tLast, gap_toNat ts tLast ▸ resync_iff⟩, fun _ _ => gap_of_elapsed⟩

/-! ### One RX_BYTE -/

/-- The cursor after a store at index `c`: held at 20, advanced by one below it (R85, R87). -/
def cursorAfter (c : Fin 21) : Fin 21 := if c = 20 then 20 else c + 1

theorem cursorAfter_val (c : Fin 21) : (cursorAfter c).val = if c = 20 then 20 else c.val + 1 := by
  revert c; decide

/-- RX_BYTE completes in every state, with this next state (R80, R89). -/
theorem exec_rxByte (data : Byte) (ts : Timestamp) (s : State) :
    exec (.rxByte data ts) s = .next { s with
      buf := s.buf.set (storeIndex ts s).val data (storeIndex ts s).isLt
      cursor := cursorAfter (storeIndex ts s)
      ready := if storeIndex ts s = 20 then true else s.ready
      tLast := ts } := by
  obtain ⟨t, ht, he, hc⟩ := execRxByte_eq data ts s
  have hcursor : t.cursor = cursorAfter (storeIndex ts s) := Fin.ext (hc.trans (cursorAfter_val _).symm)
  rw [exec, ht, he, hcursor]

/-- Settles O14: the index the rule names is the store index, and the example stores at index 0 after a gap of 6000. -/
theorem rxByteResult : Obligations.RxByteResult := by
  constructor
  · intro data ts s c hc
    obtain rfl : c = storeIndex ts s := by rw [hc, storeIndex_eq, gap_toNat]
    have h20 : (storeIndex ts s).val = 20 ↔ storeIndex ts s = 20 := (Fin.ext_iff (b := 20)).symm
    refine ⟨_, exec_rxByte data ts s, ?_, ?_⟩
    · simp only [cursorAfter_val, h20]
    · simp only [h20]
  · intro s hl _ _
    have hgap : storeIndex 7000 s = 0 := storeIndex_of_gap (by rw [hl]; decide)
    rw [exec_rxByte, hgap]
    rfl

/-- Settles O15: the store is a write of one vector element, and the two sides of the threshold give its index. -/
theorem rxByteFrame : Obligations.RxByteFrame := by
  intro data ts s t h
  rw [exec_rxByte] at h
  cases h
  refine ⟨?written, ?others, ?gap, storeIndex_of_no_gap, rfl, rfl, rfl, rfl, rfl⟩
  case written => simp
  case others =>
    intro k hk
    have hne : (storeIndex ts s).val ≠ k.val := fun e => hk (Fin.ext e.symm)
    simp [hne]
  case gap =>
    intro hgap
    rw [storeIndex_of_gap hgap]
    exact ⟨rfl, rfl, rfl⟩

/-- Settles O16, by whether the store is at index 20. -/
theorem rxByteFrameFull : Obligations.RxByteFrameFull := by
  intro data ts s
  refine ⟨_, exec_rxByte data ts s, rfl, ?full, ?below⟩
  case full =>
    intro h
    rw [h]
    exact ⟨rfl, rfl⟩
  case below =>
    intro h
    have hval : (cursorAfter (storeIndex ts s)).val = (storeIndex ts s).val + 1 := by rw [cursorAfter_val, if_neg h]
    exact ⟨if_neg h, hval, Nat.le_of_lt_succ (cursorAfter (storeIndex ts s)).isLt⟩

/-! ### The producer is never held -/

/-- On its turn the producer issues the word at its port, with no condition on the rest of the state (R89). -/
theorem nextAction_of_producer_word {s : State} {rest : List Turn} {w : CmdWord} {ws : List CmdWord}
    (hs : s.schedule = .producer :: rest) (hp : s.producerPort = w :: ws) : nextAction s = .issue .producer w := by
  simp only [nextAction, producerAction, hs, hp]

/-- The step of a producer with an encoded RX_BYTE at its port is that RX_BYTE, the turn and the word taken. -/
theorem step_of_producer_rxByte {s : State} {rest : List Turn} {data : Byte} {ts : Timestamp} {ws : List CmdWord}
    (hs : s.schedule = .producer :: rest) (hp : s.producerPort = encode (.rxByte data ts) :: ws) :
    step s = exec (.rxByte data ts) { s with schedule := rest, producerPort := ws } := by
  rw [step_of_producer_word hs hp]
  exact issueCommand_ok (decode_encode (.rxByte data ts))

/-- Settles O17: the producer's turn issues its word whatever the consumer is doing, the word decodes to the RX_BYTE, and
RX_BYTE completes in every state. -/
theorem receiveIsNeverHeld : Obligations.ReceiveIsNeverHeld := by
  intro s data ts ws rest hs hp
  have hdecode : decode .producer (encode (.rxByte data ts)) = .ok (.rxByte data ts) := decode_encode (.rxByte data ts)
  constructor
  · simp only [nextInstr, nextAction_of_producer_word hs hp, hdecode, Except.toOption]
  · have hindex : storeIndex ts { s with schedule := rest, producerPort := ws } = storeIndex ts s :=
      storeIndex_congr ts rfl rfl
    rw [step_of_producer_rxByte hs hp, exec_rxByte, hindex]
    exact ⟨_, rfl, by simp, rfl⟩

end Sys2Proof.Machine
end

section
/-! SUPPORT. The combinational functions of a POLL (R105, R106) and the steps of a baseline POLL (R101 to R104, R108,
R110): the family of `41_poll.md`. -/

namespace Sys2Proof.Machine

/-! ### The validator and the raw values -/

/-- Settles O24: the validator's two comparisons, read as a proposition. -/
theorem validatorChecksTwoMarkers : Obligations.ValidatorChecksTwoMarkers :=
  fun _ _ => iff_of_eq valid_iff

theorem valid_eq_false_iff {b0 b19 : Byte} : valid b0 b19 = false ↔ ¬ (b0 = 0xA8 ∧ b19 = 0x00) := by
  rw [← valid_iff, Bool.not_eq_true]

/-- The byte of the lower index is the more significant one (R42, R106). -/
theorem rawOf_toNat (v : Vector Byte 18) (i : Fin 8) :
    (rawOf v i).toNat = v[highSlot i].toNat * 256 + v[lowSlot i].toNat := by
  have hlow : v[lowSlot i].toNat < 2 ^ 8 := v[lowSlot i].isLt
  rw [rawOf, BitVec.toNat_append, ← Nat.shiftLeft_add_eq_or_of_lt hlow, Nat.shiftLeft_eq]

/-- Settles O25: the raw value as a number, and the buffer indices of the slots it is read from. -/
theorem rawValueIsBigEndian : Obligations.RawValueIsBigEndian :=
  ⟨rawOf_toNat, fun i => ⟨congrArg Fin.val (slotIndex_highSlot i), congrArg Fin.val (slotIndex_lowSlot i)⟩, rfl, rfl⟩

/-! ### TEST and CLEAR -/

/-- What an idle consumer's POLL is in the baseline (R101). -/
theorem exec_poll_baseline {s : State} (ha : s.cfg.pollAtomic = false) (hi : s.pphase = .idle) :
    exec .poll s = .next (pollTest s) := by
  rw [exec, execPoll_idle hi, ha]
  rfl

/-- Settles O28: a baseline POLL is `pollTest`, which branches on `ready` alone. -/
theorem pollTestStep : Obligations.PollTestStep := by
  intro s ha hi
  rw [exec_poll_baseline ha hi]
  constructor
  · intro hr; rw [pollTest, if_neg (by simp [hr])]; rfl
  · intro hr; rw [pollTest, if_pos hr]

/-- Settles O29: the consumer's turn in TESTED is `pollClear`, which has no condition. -/
theorem pollClearStep : Obligations.PollClearStep :=
  fun _ _ _ => step_of_tested

/-! ### SAMPLE -/

/-- The sampled indices are those of K (R103). -/
theorem slotIndex_range (k : Fin 21) : (∃ j : Fin 18, slotIndex j = k) ↔ k = 0 ∨ (3 ≤ k.val ∧ k.val ≤ 19) := by
  revert k; decide

/-- Whatever the schedule holds, every slot still empty is the one some pick takes. -/
theorem exists_pick_step_of_empty {s : State} {j : Fin 18} (rest : List Turn) (hg : s.pphase = .gather)
    (hj : s.smp[j] = none) :
    ∃ pick, step { s with schedule := .consumer pick :: rest } = .next (pollSample j { s with schedule := rest }) := by
  obtain ⟨pick, hpick⟩ := exists_pickSlot (mem_pendingSlots.2 hj)
  exact ⟨pick, step_of_sample rfl hg ((pickSlot_congr pick rfl).trans hpick)⟩

/-- While a slot is empty, every pick takes one that is. -/
theorem pickSlot_of_exists_empty {s : State} (pick : Nat) (h : ∃ j : Fin 18, s.smp[j] = none) :
    ∃ j : Fin 18, s.smp[j] = none ∧ pickSlot pick s = some j := by
  cases hpick : pickSlot pick s with
  | none =>
    obtain ⟨j, hj⟩ := h
    exact absurd hj (pendingSlots_eq_nil.1 (pickSlot_eq_none.1 hpick) j)
  | some j => exact ⟨j, mem_pendingSlots.1 (pickSlot_mem hpick), rfl⟩

/-- Settles O30: every empty slot has a pick, every pick takes an empty slot while there is one, and the slots are the
indices of K, once each. -/
theorem sampleOrderIsFree : Obligations.SampleOrderIsFree := by
  refine ⟨?free, ?one, slotIndex_range, fun _ _ => slotIndex_injective⟩
  case free =>
    exact fun s rest j hg hj => exists_pick_step_of_empty rest hg hj
  case one =>
    intro s pick rest hs hg hempty
    obtain ⟨j, hj, hpick⟩ := pickSlot_of_exists_empty pick hempty
    exact ⟨j, hj, step_of_sample hs hg hpick⟩

/-! ### COMMIT -/

theorem gathered_of_filled {s : State} {v : Vector Byte 18} (h : ∀ j : Fin 18, s.smp[j] = some v[j]) :
    gathered s = v := by
  apply Vector.ext
  intro n hn
  have hbyte : (gathered s)[(⟨n, hn⟩ : Fin 18)] = v[(⟨n, hn⟩ : Fin 18)] := gathered_getElem (h ⟨n, hn⟩)
  exact hbyte

/-- With all 18 samples filled, whatever the pick, the consumer's turn ends the POLL on the sampled bytes (R108). -/
theorem step_of_filled {s : State} {pick : Nat} {rest : List Turn} {v : Vector Byte 18}
    (hs : s.schedule = .consumer pick :: rest) (hg : s.pphase = .gather) (hv : ∀ j : Fin 18, s.smp[j] = some v[j]) :
    step s = .next (endPoll (decodeFrame v { s with schedule := rest })) := by
  have hpick : pickSlot pick s = none := by
    rw [pickSlot_eq_none, pendingSlots_eq_nil]
    exact fun j => by rw [hv j]; exact Option.some_ne_none _
  have hgathered : gathered { s with schedule := rest } = v := gathered_of_filled hv
  rw [step_of_commit hs hg hpick, pollCommit, hgathered]
  rfl

/-- The end of a POLL, with the markers as the rule compares them (R100, R105). -/
theorem decodeFrame_eq (v : Vector Byte 18) (s : State) :
    decodeFrame v s = if v[0] = 0xA8 ∧ v[17] = 0x00 then respond (.pollNew true) (chCommit (channelsOf v) s)
      else respond (.pollNew false) s := by
  rw [decodeFrame]
  simp only [valid_iff]
  rfl

/-- Settles O32: the commit ends the POLL on the sampled bytes, which pass the two markers or fail them. -/
theorem pollCommitStep : Obligations.PollCommitStep := by
  intro s pick rest v hs hg hv
  rw [step_of_filled hs hg hv, decodeFrame_eq]
  split_ifs <;> rfl

/-! ### A store raced with a sample -/

/-- The producer's turn with an RX_BYTE at its port lands the byte, and leaves the POLL in flight as it was (R89). -/
theorem exists_step_of_producer_rxByte {s : State} {data : Byte} {ts : Timestamp} {ws : List CmdWord}
    (turns : List Turn) (hp : s.producerPort = encode (.rxByte data ts) :: ws) :
    ∃ u : State, step { s with schedule := .producer :: turns } = .next u ∧ u.buf[storeIndex ts s] = data ∧
      u.smp = s.smp ∧ u.pphase = s.pphase ∧ u.schedule = turns ∧ u.responses = s.responses := by
  have hindex : storeIndex ts { s with schedule := turns, producerPort := ws } = storeIndex ts s :=
    storeIndex_congr ts rfl rfl
  rw [step_of_producer_rxByte (s := { s with schedule := .producer :: turns }) rfl hp, exec_rxByte, hindex]
  exact ⟨_, rfl, by simp, rfl, rfl, rfl, rfl⟩

/-- A byte stored at an index still to be sampled is the byte that its sample takes (R104). -/
theorem exists_run_store_sample {s : State} {data : Byte} {ts : Timestamp} {ws : List CmdWord} {j : Fin 18}
    (rest : List Turn) (hg : s.pphase = .gather) (hj : s.smp[j] = none) (hidx : storeIndex ts s = slotIndex j)
    (hp : s.producerPort = encode (.rxByte data ts) :: ws) :
    ∃ (pick : Nat) (t : State), run 2 { s with schedule := .producer :: .consumer pick :: rest } = .next t ∧
      t.smp = s.smp.set j.val (some data) j.isLt ∧ t.pphase = .gather ∧ t.schedule = rest ∧
      t.responses = s.responses := by
  obtain ⟨pick, hpick⟩ := exists_pickSlot (mem_pendingSlots.2 hj)
  obtain ⟨u, hstore, hbuf, hsmp, hphase, hsched, hresp⟩ :=
    exists_step_of_producer_rxByte (.consumer pick :: rest) hp
  simp only [hidx] at hbuf
  have hsample : step u = .next (pollSample j { u with schedule := rest }) :=
    step_of_sample hsched (hphase.trans hg) ((pickSlot_congr pick hsmp).trans hpick)
  refine ⟨pick, _, (run_succ 1 hstore).trans ((run_one u).trans hsample), ?_, hphase.trans hg, rfl, hresp⟩
  rw [pollSample_smp, hsmp, hbuf]

/-- The last sample fills the table: with every other slot filled already, all 18 are. -/
theorem filled_set {smp : Vector (Option Byte) 18} {v : Vector Byte 18} {j : Fin 18} {b : Byte} (hj : v[j] = b)
    (h : ∀ k : Fin 18, k ≠ j → smp[k] = some v[k]) (k : Fin 18) : (smp.set j.val (some b) j.isLt)[k] = some v[k] := by
  by_cases hk : k = j
  · subst hk; simp [← hj]
  · have hne : j.val ≠ k.val := fun e => hk (Fin.ext e.symm)
    rw [← h k hk]
    exact Vector.getElem_set_ne j.isLt k.isLt hne

/-- Settles O31: the late byte is sampled, and with the other slots filled from older bytes the commit decodes the 18 bytes
as they were sampled. -/
theorem racedSampleSeesLateStore : Obligations.RacedSampleSeesLateStore := by
  intro s data ts ws rest j hg hj hidx hp
  obtain ⟨pick, t, hrun, hsmp, hphase, hsched, hresp⟩ := exists_run_store_sample rest hg hj hidx hp
  refine ⟨pick, t, hrun, hsmp, fun v pick' rest' hrest hlate hothers hsync hmark => ?_⟩
  have hfilled : ∀ k : Fin 18, t.smp[k] = some v[k] := hsmp ▸ filled_set hlate hothers
  refine ⟨_, step_of_filled (hsched.trans hrest) hphase hfilled, ?_, ?_⟩
  · rw [decodeFrame_eq, if_pos ⟨hsync, hmark⟩, ← hresp]
    rfl
  · intro i
    rw [decodeFrame_eq, if_pos ⟨hsync, hmark⟩]
    exact channelsOf_getElem v i

/-! ### A POLL that answers false -/

/-- A command answers false only as a POLL with no frame pending or, in the atomic variant, with a wrong marker (R110). -/
theorem Issued.of_pollNew_false {p : Port} {w : CmdWord} {s t : State} (h : Issued p w s t)
    (hr : t.responses = .pollNew false :: s.responses) :
    t.ch = s.ch ∧ decode p w = .ok .poll ∧
      (s.ready = false ∨ s.cfg.pollAtomic = true ∧ ¬ (s.buf[0] = 0xA8 ∧ s.buf[19] = 0x00)) := by
  cases h with
  | refused _ _ ht | rxByte _ _ _ _ _ _ ht | pollTested _ _ _ _ ht | pollTrue _ _ _ _ _ ht | read _ _ _ ht =>
    simp [ht] at hr
  | pollNone _ hd hready ht => exact ⟨by simp [ht], hd, .inl hready⟩
  | pollFalse _ hd ha _ hv ht => exact ⟨by simp [ht], hd, .inr ⟨ha, valid_eq_false_iff.1 hv⟩⟩

theorem nextInstr_of_issue {s : State} {p : Port} {w : CmdWord} {i : Instr} (ha : nextAction s = .issue p w)
    (hd : decode p w = .ok i) : nextInstr s = some i := by
  simp only [nextInstr, ha, hd, Except.toOption]

/-- Sampled markers that pass are gathered as they are, so they pass the validator. -/
theorem valid_gathered_of_markers {s : State} (h : s.smp[0] = some 0xA8 ∧ s.smp[17] = some 0x00) :
    valid (gathered s)[syncSlot] (gathered s)[markSlot] = true := by
  obtain ⟨hsync, hmark⟩ := h
  rw [gathered_getElem (j := syncSlot) hsync, gathered_getElem (j := markSlot) hmark]
  rfl

/-- Settles O37: of all that a step can do, only a POLL issued and a commit answer false, and neither then writes `ch`. -/
theorem failedPollKeepsChannels : Obligations.FailedPollKeepsChannels := by
  intro s t h hr
  cases step_cases h with
  | producerWord _ _ _ _ _ ha hi | consumerWord _ _ _ _ _ _ _ ha hi =>
    obtain ⟨hch, hd, hcause⟩ := hi.of_pollNew_false hr
    have hpoll := nextInstr_of_issue ha hd
    exact ⟨hch, hcause.elim (fun hready => .inl ⟨hpoll, hready⟩) fun hmarkers => .inr (.inl ⟨hpoll, hmarkers⟩)⟩
  | commitFalse _ _ _ _ _ ha hv ht =>
    refine ⟨by simp [ht], .inr (.inr ⟨ha, fun hmarkers => ?_⟩)⟩
    exact Bool.false_ne_true (hv.symm.trans (valid_gathered_of_markers hmarkers))
  | noTurn _ _ ht | producerSilent _ _ _ _ ht | consumerSilent _ _ _ _ _ _ ht | clear _ _ _ _ _ ht
  | sample _ _ _ _ _ _ _ ht | commitTrue _ _ _ _ _ _ _ ht | rst _ _ _ ht => simp [ht] at hr

end Sys2Proof.Machine
end

section
/-! SUPPORT. What a READ answers (R131): the family of `42_read.md`. -/

namespace Sys2Proof.Machine

/-- Settles O44: beyond the channel table READ is `respond` with the sentinel 0, which puts that answer in front. -/
theorem readSentinel : Obligations.ReadSentinel :=
  fun s _ hidx hi => ⟨_, exec_read_sentinel hidx hi, respond_responses s (.rdValue 0)⟩

end Sys2Proof.Machine
end

section
/-! SUPPORT. What a reset turn does (R160, R161): the family of `70_reset_and_hazards.md`. -/

namespace Sys2Proof.Machine

/-- A reset turn takes no operation, whatever waits at the ports (R160). -/
theorem nextInstr_of_rst {s : State} {rest : List Turn} (h : s.schedule = .rst :: rest) : nextInstr s = none := by
  simp only [nextInstr, nextAction, h]

/-- Settles O48: a reset turn is `applyReset` once the turn is used up, and each element is what that update leaves there
(R33's values, those of the three vectors element by element). -/
theorem resetStep : Obligations.ResetStep :=
  fun _ _ hs => ⟨nextInstr_of_rst hs, _, step_of_rst hs,
    resetBuf_getElem, rfl, rfl, resetCh_getElem, rfl, rfl, emptySmp_getElem, rfl, rfl⟩

end Sys2Proof.Machine
end

section
/-! SUPPORT. Facts about steps that several statements use: the state after an RX_BYTE (R80), that a command and a step
always complete (R140, R148), and which fields no step touches. -/

namespace Sys2Proof.Machine

/-! ### The state after an RX_BYTE -/

/-- The next state of RX_BYTE (R80). -/
def received (data : Byte) (ts : Timestamp) (s : State) : State :=
  { s with
    buf := s.buf.set (storeIndex ts s).val data (storeIndex ts s).isLt
    cursor := cursorAfter (storeIndex ts s)
    ready := if storeIndex ts s = 20 then true else s.ready
    tLast := ts }

section
variable (data : Byte) (ts : Timestamp) (s : State)

theorem exec_rxByte_received : exec (.rxByte data ts) s = .next (received data ts s) := exec_rxByte data ts s

@[simp] theorem received_buf :
    (received data ts s).buf = s.buf.set (storeIndex ts s).val data (storeIndex ts s).isLt := rfl
@[simp] theorem received_cursor : (received data ts s).cursor = cursorAfter (storeIndex ts s) := rfl
@[simp] theorem received_ready : (received data ts s).ready = if storeIndex ts s = 20 then true else s.ready := rfl

end

/-- An RX_BYTE issued is an RX_BYTE received. -/
theorem Issued.eq_received {p : Port} {w : CmdWord} {s t : State} {data : Byte} {ts : Timestamp} (h : Issued p w s t)
    (hd : decode p w = .ok (.rxByte data ts)) : t = received data ts s := by
  cases h with
  | rxByte data' ts' cursor _ hd' hc ht =>
    cases hd.symm.trans hd'
    have hcursor : cursor = cursorAfter (storeIndex ts s) := Fin.ext (hc.trans (cursorAfter_val _).symm)
    rw [ht, hcursor, received]
  | refused _ hd' | pollNone _ hd' | pollTested _ hd' | pollTrue _ hd' | pollFalse _ hd' | read _ _ hd' =>
    cases hd.symm.trans hd'

/-! ### Commands and steps complete -/

/-- A command that may be issued completes: refused by the decoder or run (R140). -/
theorem exists_issueCommand_next {p : Port} {s : State} (w : CmdWord) (hi : p = .consumer → s.pphase = .idle) :
    ∃ t, issueCommand p w s = .next t := by
  cases hd : decode p w with
  | error r => exact ⟨_, issueCommand_error hd⟩
  | ok i =>
    rw [issueCommand_ok hd]
    cases p with
    | producer =>
      obtain ⟨data, ts, rfl⟩ := decode_producer_cases hd
      exact ⟨_, exec_rxByte_received data ts s⟩
    | consumer =>
      obtain rfl | ⟨idx, rfl⟩ := decode_consumer_cases hd
      · exact ⟨_, execPoll_idle (hi rfl)⟩
      · exact ⟨_, execRead_idle idx (hi rfl)⟩

/-- Settles O10, by the scheduler's next choice: only a command could fail to complete, and none does. -/
theorem everyStepHasNextState : Obligations.EveryStepHasNextState := by
  intro s
  match hs : s.schedule with
  | [] => exact ⟨_, step_of_no_turn hs⟩
  | .rst :: rest => exact ⟨_, step_of_rst hs⟩
  | .producer :: rest =>
    match hp : s.producerPort with
    | [] => exact ⟨_, step_of_producer_silent hs hp⟩
    | w :: ws =>
      rw [step_of_producer_word hs hp]
      exact exists_issueCommand_next w (by simp)
  | .consumer pick :: rest =>
    cases hi : s.pphase with
    | tested => exact ⟨_, step_of_tested hs hi⟩
    | gather =>
      cases hj : pickSlot pick s with
      | some j => exact ⟨_, step_of_sample hs hi hj⟩
      | none => exact ⟨_, step_of_commit hs hi hj⟩
    | idle =>
      match hp : s.consumerPort with
      | [] => exact ⟨_, step_of_consumer_silent hs hi hp⟩
      | w :: ws =>
        rw [step_of_consumer_word hs hi hp]
        exact exists_issueCommand_next w fun _ => hi

/-- What a command can do is what it does: the cases of `Issued` exclude each other. -/
theorem Issued.issueCommand_eq {p : Port} {w : CmdWord} {s t : State} (h : Issued p w s t)
    (hi : p = .consumer → s.pphase = .idle) : issueCommand p w s = .next t := by
  cases h with
  | refused r hd ht => rw [issueCommand_error hd, ht]
  | rxByte data ts cursor hp hd hc ht =>
    rw [issueCommand_ok hd, exec_rxByte_received, (Issued.rxByte data ts cursor hp hd hc ht).eq_received hd]
  | pollNone hp hd hr ht =>
    rw [issueCommand_ok hd, exec, execPoll_idle (hi hp), ht, pollWhole, pollTest, hr]
    simp
  | pollTested hp hd ha hr ht => rw [issueCommand_ok hd, exec, execPoll_idle (hi hp), ht, pollTest, ha, hr]; rfl
  | pollTrue hp hd ha hr hv ht =>
    obtain ⟨hr', -⟩ | ⟨-, -, e⟩ | ⟨-, hv', -⟩ := pollWhole_cases s
    · exact absurd (hr.symm.trans hr') (by decide)
    · rw [issueCommand_ok hd, exec, execPoll_idle (hi hp), ht, ha, if_pos rfl, e]
    · exact absurd (hv.symm.trans hv') (by decide)
  | pollFalse hp hd ha hr hv ht =>
    obtain ⟨hr', -⟩ | ⟨-, hv', -⟩ | ⟨-, -, e⟩ := pollWhole_cases s
    · exact absurd (hr.symm.trans hr') (by decide)
    · exact absurd (hv.symm.trans hv') (by decide)
    · rw [issueCommand_ok hd, exec, execPoll_idle (hi hp), ht, ha, if_pos rfl, e]
  | read idx hp hd ht => rw [issueCommand_ok hd, exec, execRead_idle idx (hi hp), ht]

/-! ### What no command and no step touches -/

/-- No command changes the parameters, the ports or the schedule. -/
theorem Issued.inputs_eq {p : Port} {w : CmdWord} {s t : State} (h : Issued p w s t) :
    t.cfg = s.cfg ∧ t.producerPort = s.producerPort ∧ t.consumerPort = s.consumerPort ∧ t.schedule = s.schedule := by
  cases h with
  | refused _ _ ht | rxByte _ _ _ _ _ _ ht | pollNone _ _ _ ht | pollTested _ _ _ _ ht | pollTrue _ _ _ _ _ ht
  | pollFalse _ _ _ _ _ ht | read _ _ _ ht => simp [ht]

/-- A step uses up one choice of the schedule, and leaves the parameters. -/
theorem step_schedule_cfg {s t : State} (h : step s = .next t) : t.schedule = s.schedule.tail ∧ t.cfg = s.cfg := by
  cases step_cases h with
  | noTurn hs _ ht | producerSilent _ hs _ _ ht | consumerSilent _ _ hs _ _ _ ht | clear _ _ hs _ _ ht
  | sample _ _ _ hs _ _ _ ht | commitTrue _ _ hs _ _ _ _ ht | commitFalse _ _ hs _ _ _ _ ht
  | rst _ hs _ ht => simp [ht, hs]
  | producerWord _ _ _ hs _ _ hi | consumerWord _ _ _ _ hs _ _ _ hi =>
    obtain ⟨hcfg, -, -, hsched⟩ := hi.inputs_eq
    simp [hcfg, hsched, hs]

/-- Settles O11: the parameters are in no step's write set, and `channel_count` is a constant. -/
theorem parametersNeverChange : Obligations.ParametersNeverChange :=
  fun _ _ h => ⟨(step_schedule_cfg h).2, rfl⟩

end Sys2Proof.Machine
end

section
/-! SUPPORT. Encoder and decoder undo each other (R61 to R69), and a word presented or waiting at a port is run by the
next step (R31, R46). -/

namespace Sys2Proof

/-- At the port where its operation is not legal, an encoded word is refused for its port (R69). -/
theorem decode_encode_of_port_ne {p : Port} {i : Instr} (h : i.port ≠ p) : decode p (encode i) = .error .wrongPort := by
  cases i with
  | rxByte data ts => exact (decode_op0 (congrArg Command.op (fieldsOf_encode _))).trans (if_neg h.symm)
  | poll => exact (decode_op1 (congrArg Command.op (fieldsOf_encode _))).trans (if_neg h.symm)
  | read idx => exact (decode_op2 (congrArg Command.op (fieldsOf_encode _))).trans (if_neg h.symm)

theorem wellFormed_iff {p : Port} {i : Instr} : i.wellFormed p = true ↔ i.port = p := by simp [Instr.wellFormed]

/-- Settles O1: the operation's own port accepts its word, the other port refuses it. -/
theorem encodeDecodeRoundTrip : Obligations.EncodeDecodeRoundTrip := by
  intro p i
  constructor
  · intro h
    rw [← wellFormed_iff.1 h]
    exact decode_encode i
  · intro h
    refine decode_encode_of_port_ne fun hp => ?_
    exact Bool.false_ne_true (h.symm.trans (wellFormed_iff.2 hp))

/-- Settles O2: a decoded word has the fields its operation is written with, and a word is its fields. -/
theorem decodedWordIsItsEncoding : Obligations.DecodedWordIsItsEncoding := by
  intro p w i h
  obtain ⟨hport, hfields⟩ := decode_eq_ok_iff.1 h
  exact ⟨by rw [encode, ← hfields, wordOf_fieldsOf], wellFormed_iff.2 hport⟩

/-- Settles O5: each word is read field by field, a closed computation on one word. -/
theorem specWordsDecode : Obligations.SpecWordsDecode := by
  unfold Obligations.SpecWordsDecode
  decide

end Sys2Proof

namespace Sys2Proof.Machine

/-- Settles O6: a turn with a word at the port is `issueCommand`, and a word that decodes is run. -/
theorem stepRunsDecodedCommand : Obligations.StepRunsDecodedCommand := by
  intro s w ws pick rest i
  constructor
  · intro hs hp hd
    rw [step_of_producer_word hs hp, issueCommand_ok hd]
  · intro hs hi hp hd
    rw [step_of_consumer_word hs hi hp, issueCommand_ok hd]

/-- A word presented at a port is issued there by the next step; for a consumer word a POLL in flight is ended first
(log entry 9). -/
theorem step_presentAt (p : Port) (w : CmdWord) (s : State) :
    step (presentAt p w s) = issueCommand p w (if p = .producer then s else endPoll s) := by
  cases p with
  | producer => exact step_of_producer_word rfl rfl
  | consumer => exact step_of_consumer_word rfl rfl rfl

/-- A table word that decodes has at most 42 bits, and decodes at the port it is presented at, where its operation is
legal. -/
theorem of_decodeTableWord {nbits w : Nat} {i : Instr} (h : decodeTableWord nbits w = some i) :
    w < 2 ^ 42 ∧ decode i.port (BitVec.ofNat 42 w) = .ok i ∧ portOfWord (BitVec.ofNat 42 w) = i.port := by
  rw [decodeTableWord] at h
  split_ifs at h with hw
  cases hd : decode (portOfWord (BitVec.ofNat 42 w)) (BitVec.ofNat 42 w) with
  | error r => simp [hd, Except.toOption] at h
  | ok j =>
    obtain rfl : j = i := by simpa [hd, Except.toOption] using h
    have hport : j.port = portOfWord (BitVec.ofNat 42 w) := (decode_eq_ok_iff.1 hd).1
    exact ⟨hw, hport ▸ hd, hport.symm⟩

/-- Settles O7: the word is presented at its operation's port, issued there by the next step, and decodes. -/
theorem presentedWordIsRunNext : Obligations.PresentedWordIsRunNext := by
  intro s nbits w i h
  obtain ⟨hw, hd, hport⟩ := of_decodeTableWord h
  rw [State.withFetchWord, presentTableWord, if_pos hw, hport, step_presentAt, issueCommand_ok hd]
  rfl

/-- Settles O46: `consumerAction` issues a word in the idle phase alone, and the steps of a POLL in flight leave the
port. -/
theorem consumerIssuesOnlyWhenIdle : Obligations.ConsumerIssuesOnlyWhenIdle := by
  constructor
  · intro s w ha
    obtain ⟨t, h⟩ := everyStepHasNextState s
    cases step_cases h with
    | consumerWord _ _ _ _ _ hi => exact hi
    | noTurn _ ha' | producerSilent _ _ _ ha' | producerWord _ _ _ _ _ ha' | consumerSilent _ _ _ _ _ ha'
    | clear _ _ _ _ ha' | sample _ _ _ _ _ _ ha' | commitTrue _ _ _ _ _ ha' | commitFalse _ _ _ _ _ ha'
    | rst _ _ ha' => cases ha.symm.trans ha'
  · intro s t pick rest hs hi h
    cases step_cases h with
    | clear _ _ _ _ ha ht => exact ⟨.inl ha, by simp [ht]⟩
    | sample _ _ j _ _ _ ha ht => exact ⟨.inr (.inl ⟨j, ha⟩), by simp [ht]⟩
    | commitTrue _ _ _ _ _ ha _ ht | commitFalse _ _ _ _ _ ha _ ht => exact ⟨.inr (.inr ha), by simp [ht]⟩
    | consumerSilent _ _ _ hi' | consumerWord _ _ _ _ _ hi' => exact absurd hi' hi
    | noTurn hs' | producerSilent _ hs' | producerWord _ _ _ hs' | rst _ hs' => cases hs.symm.trans hs'

/-- Settles O47: `execPoll` and `execRead` test `pphase` before anything else. -/
theorem busyConsumerOperationsRefused : Obligations.BusyConsumerOperationsRefused :=
  fun _ _ h => ⟨if_pos h, if_pos h⟩

end Sys2Proof.Machine
end

section
/-! SUPPORT. The scalar (R107, R133): the integer quotient `scaleInt`, to which every other form is compared. -/

namespace Sys2Proof.Machine

/-! ### The quotient -/

theorem scaleInt_range (raw : RawWord) : -375 ≤ scaleInt raw ∧ scaleInt raw ≤ 9864 := by
  obtain ⟨hnonneg, hneg⟩ := scaleInt_bounds raw
  have := raw.isLt
  omega

/-- The stored entry holds the quotient without loss (R24). -/
theorem scale_toInt (raw : RawWord) : (scale raw).toInt = scaleInt raw := by
  obtain ⟨hlow, hhigh⟩ := scaleInt_range raw
  exact BitVec.toInt_ofInt_eq_self (by decide) (by omega) (by omega)

theorem scale_range (raw : RawWord) : -375 ≤ (scale raw).toInt ∧ (scale raw).toInt ≤ 9864 := by
  rw [scale_toInt]
  exact scaleInt_range raw

theorem scaleInt_mono {a b : RawWord} (h : a.toNat ≤ b.toNat) : scaleInt a ≤ scaleInt b := by
  obtain ⟨hapos, haneg⟩ := scaleInt_bounds a
  obtain ⟨hbpos, hbneg⟩ := scaleInt_bounds b
  omega

/-- Settles O27: the quotient is 0 for −32 < 5·raw − 12000 < 32. -/
theorem rawValuesThatDecodeToZero : Obligations.RawValuesThatDecodeToZero := by
  intro raw
  obtain ⟨hnonneg, hneg⟩ := scaleInt_bounds raw
  rw [← BitVec.toInt_inj, scale_toInt]
  change scaleInt raw = 0 ↔ _
  omega

/-! ### Against the exact rationals -/

theorem floor_div_32 (n : Int) : ⌊(n : ℚ) / 32⌋ = n / 32 := Rat.floor_intCast_div_natCast n 32

theorem ceil_div_32 (n : Int) : ⌈(n : ℚ) / 32⌉ = -(-n / 32) := Rat.ceil_intCast_div_natCast n 32

/-- Rounding an exact quotient by 32 toward zero (R8) is the integer quotient rounded toward zero. -/
theorem truncRat_div_32 (n : Int) : truncRat ((n : ℚ) / 32) = n.tdiv 32 := by
  obtain ⟨hnonneg, hneg⟩ := tdiv_32_bounds n
  have hsign : 0 ≤ (n : ℚ) / 32 ↔ 0 ≤ n := by
    rw [le_div_iff₀ (by norm_num), zero_mul]
    exact Int.cast_nonneg_iff
  simp only [truncRat, hsign, floor_div_32, ceil_div_32]
  split_ifs <;> omega

/-- The source's formula and the exact integer form are the same rational (R107). -/
theorem exact_scalar_eq (raw : RawWord) :
    (raw.toNat : ℚ) / (64 / 10) - 375 = ((5 * (raw.toNat : Int) - 12000 : Int) : ℚ) / 32 := by
  push_cast
  ring

theorem scaleInt_eq_truncRat (raw : RawWord) :
    scaleInt raw = truncRat ((raw.toNat : ℚ) / (64 / 10) - 375) := by
  rw [exact_scalar_eq, truncRat_div_32, scaleInt]

/-- Rounding toward zero differs from rounding down below 0, where 32 does not divide. -/
theorem scaleInt_ne_floor_iff (raw : RawWord) :
    scaleInt raw ≠ ⌊(raw.toNat : ℚ) / (64 / 10) - 375⌋ ↔ raw.toNat < 2400 ∧ ¬ 32 ∣ 5 * raw.toNat := by
  obtain ⟨hnonneg, hneg⟩ := scaleInt_bounds raw
  rw [exact_scalar_eq, floor_div_32]
  omega

/-- 5 is prime to 32, so of each 32 numbers in a row 31 are counted. -/
theorem count_not_dvd (m : Nat) : Nat.count (fun n => ¬ 32 ∣ 5 * n) (32 * m) = 31 * m := by
  induction m with
  | zero => rfl
  | succ m ih =>
    have hblock : Nat.count (fun k => ¬ 32 ∣ 5 * (32 * m + k)) 32 = Nat.count (fun k => ¬ 32 ∣ 5 * k) 32 := by
      congr! 3
      omega
    have h32 : Nat.count (fun k => ¬ 32 ∣ 5 * k) 32 = 31 := by decide
    rw [Nat.mul_succ, Nat.count_add, ih, hblock, h32, Nat.mul_succ]

/-- Of the 2400 = 32 · 75 raw values below 0, 31 · 75 are no exact quotient, and none above them counts. -/
theorem count_not_dvd_below_2400 (m : Nat) : Nat.count (fun n => n < 2400 ∧ ¬ 32 ∣ 5 * n) (2400 + m) = 2325 := by
  have hbelow : Nat.count (fun n => n < 2400 ∧ ¬ 32 ∣ 5 * n) 2400 = 2325 := by
    refine (List.countP_congr fun n hn => ?_).trans (count_not_dvd 75)
    have : n < 2400 := List.mem_range.1 hn
    simp [this]
  have habove : Nat.count (fun k => 2400 + k < 2400 ∧ ¬ 32 ∣ 5 * (2400 + k)) m = 0 :=
    Nat.count_iff_forall_not.2 fun k _ h => by omega
  rw [Nat.count_add, hbelow, habove]

/-! ### Against the 20-bit realizations -/

/-- The intermediate n = 5·raw − 12000 fits 20 bits. -/
theorem scaleN_toInt (raw : RawWord) : (scaleN raw).toInt = 5 * (raw.toNat : Int) - 12000 := by
  have := raw.isLt
  have hwidth : raw.toNat < 2 ^ 20 := by omega
  have hnat : (scaleN raw).toNat = (2 ^ 20 - 12000 + 5 * raw.toNat) % 2 ^ 20 := by
    rw [scaleN, BitVec.toNat_sub, BitVec.toNat_mul, BitVec.toNat_setWidth, Nat.mod_eq_of_lt hwidth]
    simp
  rw [BitVec.toInt_eq_toNat_cond, hnat]
  split <;> omega

/-- A logical shift right by 5, kept to 16 bits, is the quotient by 32 of the unsigned number. -/
theorem setWidth_ushiftRight_5 (x : BitVec 20) : (x >>> 5).setWidth 16 = BitVec.ofInt 16 ((x.toNat : Int) / 32) := by
  have h : x.toNat >>> 5 = x.toNat / 32 := Nat.shiftRight_eq_div_pow _ _
  rw [← BitVec.toNat_inj, BitVec.toNat_setWidth, BitVec.toNat_ushiftRight, h, BitVec.toNat_ofInt]
  omega

/-- An arithmetic shift right by 5, kept to 16 bits, is the quotient by 32 rounded down. -/
theorem setWidth_sshiftRight_5 (x : BitVec 20) : (x.sshiftRight 5).setWidth 16 = BitVec.ofInt 16 (x.toInt / 32) := by
  have h : x.toInt >>> (5 : Nat) = x.toInt / 32 := Int.shiftRight_eq_div_pow _ _
  rw [BitVec.sshiftRight, h, ← BitVec.toNat_inj, BitVec.toNat_setWidth, BitVec.toNat_ofInt, BitVec.toNat_ofInt]
  omega

/-- The unsigned reading of a number that is not negative, and of the negation of one that is. -/
theorem toNat_of_toInt_sign (x : BitVec 20) :
    (0 ≤ x.toInt → (x.toNat : Int) = x.toInt) ∧ (x.toInt < 0 → ((-x).toNat : Int) = -x.toInt) := by
  have := x.isLt
  rw [BitVec.toInt_eq_toNat_cond, BitVec.toNat_neg]
  split <;> omega

/-- The shift of the magnitude, with the sign put back (R107). -/
theorem scaleShift_eq (raw : RawWord) : scaleShift raw = scale raw := by
  obtain ⟨hnonneg, hneg⟩ := scaleInt_bounds raw
  obtain ⟨hpos, hmag⟩ := toNat_of_toInt_sign (scaleN raw)
  have hn := scaleN_toInt raw
  rw [scaleShift]
  split_ifs with h
  · rw [setWidth_ushiftRight_5, hpos h, hn, scale]
    congr 1
    omega
  · rw [BitVec.setWidth_neg_of_le (by decide), setWidth_ushiftRight_5, hmag (by omega), hn, ← BitVec.ofInt_neg,
      scale]
    congr 1
    omega

/-- Adding 31 below 0 turns rounding down into rounding up (R107). -/
theorem scaleBias_eq (raw : RawWord) : scaleBias raw = scale raw := by
  obtain ⟨hnonneg, hneg⟩ := scaleInt_bounds raw
  have hn := scaleN_toInt raw
  have hbias : (scaleN raw + 31).toInt = ((scaleN raw).toInt + 31).bmod (2 ^ 20) := BitVec.toInt_add _ _
  have := raw.isLt
  rw [scaleBias, setWidth_sshiftRight_5, scale]
  congr 1
  split_ifs with h
  · rw [hbias, Int.bmod_eq_of_le (by omega) (by omega), hn]
    omega
  · rw [add_zero, hn]
    omega

/-- Settles O26: every form is compared to the quotient `scaleInt`. -/
theorem scalarIsExact : Obligations.ScalarIsExact := by
  refine ⟨fun raw => ?_, ?_, ?_, ?_, ?_⟩
  · obtain ⟨hlow, hhigh⟩ := scaleInt_range raw
    have hn := scaleN_toInt raw
    have := raw.isLt
    have hexact : (5 * (raw.toNat : ℚ) - 12000) / 32 = (raw.toNat : ℚ) / (64 / 10) - 375 := by ring
    rw [scale_toInt, hexact]
    exact ⟨scaleInt_eq_truncRat raw, scaleInt_eq_truncRat raw, hn, by omega, by omega, scaleShift_eq raw,
      scaleBias_eq raw, hlow, hhigh, scaleInt_ne_floor_iff raw⟩
  · rfl
  · rfl
  · intro a b h
    rw [scale_toInt, scale_toInt]
    exact scaleInt_mono h
  · rw [← List.countP_eq_length_filter]
    exact count_not_dvd_below_2400 63136

end Sys2Proof.Machine
end

section
/-! SUPPORT. What every step keeps (R24, R26, R37, R109), said of the channel table, the responses and the POLL in
flight. -/

namespace Sys2Proof.Machine

/-! ### The channel table and the responses -/

/-- The values the scalar takes, as entries of the channel table (R24). -/
def InScalarRange (v : ChWord) : Prop := -375 ≤ v.toInt ∧ v.toInt ≤ 9864

theorem inScalarRange_zero : InScalarRange 0 := ⟨by decide, by decide⟩

theorem inScalarRange_channelsOf (v : Vector Byte 18) (i : Fin 8) : InScalarRange (channelsOf v)[i] := by
  rw [channelsOf_getElem]
  exact scale_range _

/-- READ answers an entry of the channel table or the sentinel 0 (R130, R131). -/
theorem inScalarRange_muxValue {s : State} (h : ∀ i : Fin 8, InScalarRange s.ch[i]) (idx : Byte) :
    InScalarRange (muxValue idx s) := by
  rw [muxValue_eq]
  split_ifs with hidx
  · exact h ⟨idx.toNat, hidx⟩
  · exact inScalarRange_zero

/-- A full set of 18 bytes with the right markers, all sampled or all in the buffer. -/
def MarkedFrame (s : State) (v : Vector Byte 18) : Prop :=
  v[0] = 0xA8 ∧ v[17] = 0x00 ∧ ((∀ j : Fin 18, s.smp[j] = some v[j]) ∨ ∀ j : Fin 18, s.buf[slotIndex j] = v[j])

/-- With every sample taken, what is gathered is what was sampled. -/
theorem smp_eq_gathered {s : State} (h : pendingSlots s = []) (j : Fin 18) : s.smp[j] = some (gathered s)[j] := by
  cases hj : s.smp[j] with
  | none => exact absurd hj (pendingSlots_eq_nil.1 h j)
  | some b => rw [gathered_getElem hj]

theorem markedFrame_gathered {s : State} (h : pendingSlots s = [])
    (hv : valid (gathered s)[syncSlot] (gathered s)[markSlot] = true) : MarkedFrame s (gathered s) := by
  rw [valid_iff] at hv
  exact ⟨hv.1, hv.2, .inl (smp_eq_gathered h)⟩

theorem markedFrame_snapshot {s : State} (hv : valid s.buf[0] s.buf[19] = true) : MarkedFrame s (snapshot s) := by
  rw [valid_iff] at hv
  have hsync : (snapshot s)[syncSlot] = s.buf[slotIndex syncSlot] := snapshot_getElem s syncSlot
  have hmark : (snapshot s)[markSlot] = s.buf[slotIndex markSlot] := snapshot_getElem s markSlot
  exact ⟨hsync.trans hv.1, hmark.trans hv.2, .inr fun j => (snapshot_getElem s j).symm⟩

/-- A command leaves the channel table without answering true, or answers true and replaces the table whole. -/
theorem Issued.ch_cases {p : Port} {w : CmdWord} {s t : State} (h : Issued p w s t) :
    (t.ch = s.ch ∧ t.responses ≠ .pollNew true :: s.responses) ∨
    (t.responses = .pollNew true :: s.responses ∧ ∃ v, MarkedFrame s v ∧ t.ch = channelsOf v) := by
  cases h with
  | pollTrue _ _ _ _ hv ht =>
    rw [ht]
    exact .inr ⟨rfl, _, markedFrame_snapshot hv, rfl⟩
  | refused _ _ ht | rxByte _ _ _ _ _ _ ht | pollNone _ _ _ ht | pollTested _ _ _ _ ht | pollFalse _ _ _ _ _ ht
  | read _ _ _ ht => exact .inl (by simp [ht])

/-- The channel table is written by a reset, by a POLL that answers true, and by nothing else (R37). -/
theorem step_ch_cases {s t : State} (h : step s = .next t) :
    (t.ch = s.ch ∧ t.responses ≠ .pollNew true :: s.responses) ∨
    (nextAction s = .reset ∧ t.ch = resetCh ∧ t.responses = s.responses) ∨
    (t.responses = .pollNew true :: s.responses ∧ ∃ v, MarkedFrame s v ∧ t.ch = channelsOf v) := by
  cases step_cases h with
  | producerWord _ _ _ _ _ _ hi | consumerWord _ _ _ _ _ _ _ _ hi => exact hi.ch_cases.imp_right .inr
  | rst _ _ ha ht => exact .inr (.inl ⟨ha, by simp [ht]⟩)
  | commitTrue _ _ _ _ hj _ hv ht =>
    rw [ht]
    exact .inr (.inr ⟨rfl, _, markedFrame_gathered hj hv, rfl⟩)
  | noTurn _ _ ht | producerSilent _ _ _ _ ht | consumerSilent _ _ _ _ _ _ ht | clear _ _ _ _ _ ht
  | sample _ _ _ _ _ _ _ ht | commitFalse _ _ _ _ _ _ _ ht => exact .inl (by simp [ht])

/-- Settles O38, by the three ways a step treats the channel table. -/
theorem channelsReplacedOnlyAsFullSet : Obligations.ChannelsReplacedOnlyAsFullSet := by
  intro s t h
  obtain ⟨hch, hr⟩ | ⟨ha, -, hr⟩ | ⟨hr, v, ⟨hsync, hmark, hbytes⟩, hch⟩ := step_ch_cases h
  · exact ⟨fun hr' => absurd hr' hr, fun hch' => absurd hch hch'⟩
  · exact ⟨fun hr' => absurd (hr.symm.trans hr') (List.cons_ne_self _ _).symm, fun _ => .inl ha⟩
  · refine ⟨fun _ => ⟨v, hsync, hmark, hbytes, fun i => ?_⟩, fun _ => .inr hr⟩
    rw [hch, channelsOf_getElem]

/-- A command delivers no value, or the one value of a READ (R10). -/
theorem Issued.rdValue_mem {p : Port} {w : CmdWord} {s t : State} (h : Issued p w s t) {v : ChWord}
    (hv : .rdValue v ∈ t.responses) : .rdValue v ∈ s.responses ∨ ∃ idx, v = muxValue idx s := by
  cases h with
  | read idx _ _ ht =>
    obtain hv | hv : v = muxValue idx s ∨ .rdValue v ∈ s.responses := by simpa [ht] using hv
    · exact .inr ⟨idx, hv⟩
    · exact .inl hv
  | refused _ _ ht | rxByte _ _ _ _ _ _ ht | pollNone _ _ _ ht | pollTested _ _ _ _ ht | pollTrue _ _ _ _ _ ht
  | pollFalse _ _ _ _ _ ht => exact .inl (by simpa [ht] using hv)

/-- A value delivered by a step is what READ answers in the state before it. -/
theorem step_rdValue_mem {s t : State} (h : step s = .next t) {v : ChWord} (hv : .rdValue v ∈ t.responses) :
    .rdValue v ∈ s.responses ∨ ∃ idx, v = muxValue idx s := by
  cases step_cases h with
  | producerWord _ _ _ _ _ _ hi | consumerWord _ _ _ _ _ _ _ _ hi => exact hi.rdValue_mem hv
  | noTurn _ _ ht | producerSilent _ _ _ _ ht | consumerSilent _ _ _ _ _ _ ht | clear _ _ _ _ _ ht
  | sample _ _ _ _ _ _ _ ht | commitTrue _ _ _ _ _ _ _ ht | commitFalse _ _ _ _ _ _ _ ht
  | rst _ _ _ ht => exact .inl (by simpa [ht] using hv)

/-! ### The POLL in flight -/

/-- A command takes no sample, and puts a POLL in flight only in the baseline and with a frame pending (R101, R109). -/
theorem Issued.poll_frame {p : Port} {w : CmdWord} {s t : State} (h : Issued p w s t) :
    t.smp = s.smp ∧ (t.pphase = s.pphase ∨ s.cfg.pollAtomic = false ∧ s.ready = true) := by
  cases h with
  | pollTested _ _ ha hr ht => exact ⟨by simp [ht], .inr ⟨ha, hr⟩⟩
  | refused _ _ ht | rxByte _ _ _ _ _ _ ht | pollNone _ _ _ ht | pollTrue _ _ _ _ _ ht | pollFalse _ _ _ _ _ ht
  | read _ _ _ ht => exact ⟨by simp [ht], .inl (by simp [ht])⟩

/-- Samples are held only while gathering: CLEAR begins with none and COMMIT leaves none (R26, R102, R108). -/
theorem step_keeps_smp_empty {s t : State} (hsmp : s.pphase ≠ .gather → s.smp = emptySmp) (h : step s = .next t) :
    t.pphase ≠ .gather → t.smp = emptySmp := by
  cases step_cases h with
  | noTurn _ _ ht | producerSilent _ _ _ _ ht | consumerSilent _ _ _ _ _ _ ht => simpa [ht] using hsmp
  | producerWord _ _ _ _ _ _ hi =>
    obtain ⟨-, hphase, hsmp', -⟩ := hi.producer_frame
    rw [hphase, hsmp']
    exact hsmp
  | consumerWord _ _ _ _ _ hidle _ _ hi =>
    intro _
    rw [hi.poll_frame.1]
    exact hsmp (by rw [hidle]; decide)
  | clear _ _ _ _ _ ht | commitTrue _ _ _ _ _ _ _ ht | commitFalse _ _ _ _ _ _ _ ht | rst _ _ _ ht => simp [ht]
  | sample _ _ _ _ hg _ _ ht => simp [ht, hg]

/-- In the atomic variant, and with no frame pending, no POLL comes to be in flight (R101, R109). -/
theorem step_keeps_idle {s t : State} (hno : s.cfg.pollAtomic = true ∨ s.ready = false) (hidle : s.pphase = .idle)
    (h : step s = .next t) : t.pphase = .idle := by
  cases step_cases h with
  | noTurn _ _ ht | producerSilent _ _ _ _ ht | consumerSilent _ _ _ _ _ _ ht => simp [ht, hidle]
  | producerWord _ _ _ _ _ _ hi | consumerWord _ _ _ _ _ _ _ _ hi =>
    obtain hphase | ⟨ha, hr⟩ := hi.poll_frame.2
    · exact hphase.trans hidle
    · simp_all
  | commitTrue _ _ _ _ _ _ _ ht | commitFalse _ _ _ _ _ _ _ ht | rst _ _ _ ht => simp [ht]
  | clear _ _ _ hi | sample _ _ _ _ hi => exact absurd (hidle.symm.trans hi) (by decide)

/-! ### The invariant -/

/-- Settles O50: at reset no sample is held, no POLL is in flight, the entries are 0 and nothing has been answered. -/
theorem invariantAtReset : Obligations.InvariantAtReset := fun _ =>
  { smp_empty := fun _ => rfl
    atomic_idle := fun _ => rfl
    ch_range := fun i => (resetCh_getElem i).symm ▸ inScalarRange_zero
    rd_range := fun _ hv => absurd hv List.not_mem_nil }

/-- Settles O51, clause by clause: the samples, the phase of the atomic variant, the channel table, and the values READ
takes from it. -/
theorem stepKeepsInvariant : Obligations.StepKeepsInvariant := by
  intro s t hinv h
  have hcfg := (step_schedule_cfg h).2
  refine ⟨step_keeps_smp_empty hinv.smp_empty h, fun ha => ?atomic, fun i => ?ch, fun v hv => ?rd⟩
  case atomic =>
    rw [hcfg] at ha
    exact step_keeps_idle (.inl ha) (hinv.atomic_idle ha) h
  case ch =>
    obtain ⟨hch, -⟩ | ⟨-, hch, -⟩ | ⟨-, v, -, hch⟩ := step_ch_cases h
    · rw [hch]; exact hinv.ch_range i
    · rw [hch, resetCh_getElem]; exact inScalarRange_zero
    · rw [hch]; exact inScalarRange_channelsOf v i
  case rd =>
    obtain hold | ⟨idx, rfl⟩ := step_rdValue_mem h hv
    · exact hinv.rd_range v hold
    · exact inScalarRange_muxValue hinv.ch_range idx

end Sys2Proof.Machine
end

section
/-! SUPPORT. The history of the buffer (R35): when `ready` rises the whole frame has been written. -/

namespace Sys2Proof.Machine

/-- A step that takes no command word runs no operation. -/
theorem nextInstr_of_no_command {s : State} (h : ∀ p w, nextAction s ≠ .issue p w) : nextInstr s = none := by
  unfold nextInstr
  split
  · next p w ha => exact absurd ha (h p w)
  · rfl

/-- Neither does one whose word the decoder refuses. -/
theorem nextInstr_of_refused {s : State} {p : Port} {w : CmdWord} {r : RefuseReason} (ha : nextAction s = .issue p w)
    (hd : decode p w = .error r) : nextInstr s = none := by
  simp only [nextInstr, ha, hd, Except.toOption]

/-- No RX_BYTE is decoded at the consumer's port (R62). -/
theorem nextInstr_ne_rxByte_of_consumer {s : State} {w : CmdWord} (ha : nextAction s = .issue .consumer w)
    (data : Byte) (ts : Timestamp) : nextInstr s ≠ some (.rxByte data ts) := by
  intro h
  cases hd : decode .consumer w with
  | error r => simp [nextInstr_of_refused ha hd] at h
  | ok i =>
    rw [nextInstr_of_issue ha hd] at h
    obtain rfl | ⟨idx, rfl⟩ := decode_consumer_cases hd <;> simp at h

/-- A step receives a byte, or resets, or leaves the cursor and does not raise `ready` (R32, R47). -/
theorem step_receive_cases {s t : State} (h : step s = .next t) :
    (∃ data ts, nextInstr s = some (.rxByte data ts) ∧ t.cursor = cursorAfter (storeIndex ts s) ∧
      t.ready = if storeIndex ts s = 20 then true else s.ready) ∨
    (nextAction s = .reset ∧ t.cursor = 0 ∧ t.ready = false) ∨
    ((∀ data ts, nextInstr s ≠ some (.rxByte data ts)) ∧ nextAction s ≠ .reset ∧ t.cursor = s.cursor ∧
      (t.ready = true → s.ready = true)) := by
  cases step_cases h with
  | rst _ _ ha ht => exact .inr (.inl ⟨ha, by simp [ht]⟩)
  | producerWord _ _ _ _ _ ha hi =>
    cases hi with
    | rxByte data ts cursor hp hd hc ht =>
      rw [(Issued.rxByte data ts cursor hp hd hc ht).eq_received hd]
      exact .inl ⟨data, ts, nextInstr_of_issue ha hd, rfl, rfl⟩
    | refused _ hd ht => exact .inr (.inr ⟨by simp [nextInstr_of_refused ha hd], by simp [ha], by simp [ht]⟩)
    | pollNone hp | pollTested hp | pollTrue hp | pollFalse hp | read _ hp => cases hp
  | consumerWord _ _ _ _ _ _ _ ha hi =>
    obtain ⟨-, hcursor, -, hready⟩ := hi.consumer_frame
    exact .inr (.inr ⟨nextInstr_ne_rxByte_of_consumer ha, by simp [ha], hcursor, hready⟩)
  | noTurn _ ha ht | producerSilent _ _ _ ha ht | consumerSilent _ _ _ _ _ ha ht | clear _ _ _ _ ha ht
  | sample _ _ _ _ _ _ ha ht | commitTrue _ _ _ _ _ ha _ ht | commitFalse _ _ _ _ _ ha _ ht =>
    exact .inr (.inr ⟨by simp [nextInstr_of_no_command (s := s) (by simp [ha])], by simp [ha], by simp [ht]⟩)

/-- An RX_BYTE at index 0 begins the history again, and any RX_BYTE adds its own index. -/
theorem writtenAfterStep_of_rxByte {s : State} {data : Byte} {ts : Timestamp} (written : Fin 21 → Bool)
    (h : nextInstr s = some (.rxByte data ts)) (k : Fin 21) :
    writtenAfterStep s written k = true ↔ k = storeIndex ts s ∨ storeIndex ts s ≠ 0 ∧ written k = true := by
  simp [writtenAfterStep, h]

theorem writtenAfterStep_of_other {s : State} (written : Fin 21 → Bool)
    (h : ∀ data ts, nextInstr s ≠ some (.rxByte data ts)) (ha : nextAction s ≠ .reset) :
    writtenAfterStep s written = written := by
  unfold writtenAfterStep
  split
  · next data ts hrx => exact absurd hrx (h data ts)
  · rw [if_neg ha]

theorem storeIndex_eq_zero_or (ts : Timestamp) (s : State) : storeIndex ts s = 0 ∨ storeIndex ts s = s.cursor := by
  rw [storeIndex_eq]
  split_ifs <;> simp

/-- After an RX_BYTE everything up to its store index has been written since the cursor was last 0. -/
theorem written_upto_storeIndex {s : State} {data : Byte} {ts : Timestamp} {written : Fin 21 → Bool}
    (hw : WrittenBelowCursor s written) (h : nextInstr s = some (.rxByte data ts)) {k : Fin 21}
    (hk : k ≤ storeIndex ts s) : writtenAfterStep s written k = true := by
  rw [writtenAfterStep_of_rxByte written h]
  obtain heq | hlt := eq_or_lt_of_le hk
  · exact .inl heq
  · have hne : storeIndex ts s ≠ 0 := fun h0 => absurd (h0 ▸ hlt) (Fin.not_lt_zero k)
    have hcursor : storeIndex ts s = s.cursor := (storeIndex_eq_zero_or ts s).resolve_left hne
    exact .inr ⟨hne, hw k (hcursor ▸ hlt)⟩

/-- Settles O20: an RX_BYTE writes the one index the cursor passes, and raises `ready` at the last one. -/
theorem readyMeansWholeFrameWritten : Obligations.ReadyMeansWholeFrameWritten := by
  refine ⟨fun s h0 k hk => absurd hk (by simp [h0]), fun s t written hw h => ?_⟩
  obtain ⟨data, ts, hrx, hcursor, hready⟩ | ⟨-, hcursor, hready⟩ | ⟨hrx, ha, hcursor, hready⟩ :=
    step_receive_cases h
  · constructor
    · intro k hk
      refine written_upto_storeIndex hw hrx (Fin.le_def.2 ?_)
      rw [hcursor, cursorAfter_val] at hk
      split_ifs at hk with h20
      · rw [h20]; exact hk.le
      · omega
    · intro hr hr' k
      refine written_upto_storeIndex hw hrx ?_
      by_cases h20 : storeIndex ts s = 20
      · rw [h20]; exact Fin.le_last k
      · rw [hready, if_neg h20, hr] at hr'
        cases hr'
  · exact ⟨fun k hk => absurd hk (by simp [hcursor]), fun _ hr => absurd (hready.symm.trans hr) (by decide)⟩
  · rw [writtenAfterStep_of_other written hrx ha]
    exact ⟨fun k hk => hw k (hcursor ▸ hk), fun hr hr' => absurd (hr.symm.trans (hready hr')) (by decide)⟩

end Sys2Proof.Machine
end

section
/-! SUPPORT. Differences that no agent can observe: buffer bytes that a POLL does not sample, or not before they are
overwritten (R35, R71, R103), and the timestamp while the cursor is 0 (R36). -/

namespace Sys2Proof.Machine

/-! ### The same step with another buffer and timestamp -/

/-- `s` with the buffer and the timestamp `r`. -/
def withReceiver (r : Vector Byte 21 × Timestamp) (s : State) : State := { s with buf := r.1, tLast := r.2 }

/-- The buffer and the timestamp after the next step, from those before it. -/
def receiverAfterStep (s : State) (r : Vector Byte 21 × Timestamp) : Vector Byte 21 × Timestamp :=
  match nextInstr s with
  | some (.rxByte data ts) => (r.1.set (storeIndex ts s).val data, ts)
  | _ => if nextAction s = .reset then (resetBuf, 0) else r

theorem receiverAfterStep_of_rxByte {s : State} {data : Byte} {ts : Timestamp} (r : Vector Byte 21 × Timestamp)
    (h : nextInstr s = some (.rxByte data ts)) :
    receiverAfterStep s r = (r.1.set (storeIndex ts s).val data, ts) := by
  simp only [receiverAfterStep, h]

theorem receiverAfterStep_of_refused {s : State} {p : Port} {w : CmdWord} {e : RefuseReason}
    (r : Vector Byte 21 × Timestamp) (ha : nextAction s = .issue p w) (hd : decode p w = .error e) :
    receiverAfterStep s r = r := by
  simp [receiverAfterStep, nextInstr_of_refused ha hd, ha]

theorem receiverAfterStep_of_no_command {s : State} (r : Vector Byte 21 × Timestamp)
    (h : ∀ p w, nextAction s ≠ .issue p w) (ha : nextAction s ≠ .reset) : receiverAfterStep s r = r := by
  simp [receiverAfterStep, nextInstr_of_no_command h, ha]

theorem receiverAfterStep_of_reset {s : State} (r : Vector Byte 21 × Timestamp) (ha : nextAction s = .reset) :
    receiverAfterStep s r = (resetBuf, 0) := by
  simp [receiverAfterStep, nextInstr_of_no_command (s := s) (by simp [ha]), ha]

theorem receiverAfterStep_of_other {s : State} (r : Vector Byte 21 × Timestamp)
    (h : ∀ data ts, nextInstr s ≠ some (.rxByte data ts)) (ha : nextAction s ≠ .reset) :
    receiverAfterStep s r = r := by
  unfold receiverAfterStep
  split
  · next data ts hrx => exact absurd hrx (h data ts)
  · rw [if_neg ha]

/-- No POLL can tell the buffer of `s` from `b` now: they agree where it samples, or no frame is pending or being
decoded. -/
def Indistinguishable (s : State) (b : Vector Byte 21) : Prop :=
  (∀ j : Fin 18, s.buf[slotIndex j] = b[slotIndex j]) ∨ (s.ready = false ∧ s.pphase = .idle)

theorem Indistinguishable.sampled {s : State} {b : Vector Byte 21} (h : Indistinguishable s b)
    (hactive : s.ready = true ∨ s.pphase ≠ .idle) (j : Fin 18) : s.buf[slotIndex j] = b[slotIndex j] := by
  obtain hsame | ⟨hready, hidle⟩ := h
  · exact hsame j
  · simp [hready, hidle] at hactive

section
variable (r : Vector Byte 21 × Timestamp)

theorem decodeFrame_withReceiver (v : Vector Byte 18) (s : State) :
    decodeFrame v (withReceiver r s) = withReceiver r (decodeFrame v s) := by
  unfold decodeFrame
  split <;> rfl

theorem pollTest_withReceiver (s : State) : pollTest (withReceiver r s) = withReceiver r (pollTest s) := by
  unfold pollTest
  cases hr : s.ready <;> simp [withReceiver, hr, respond]

theorem pollCommit_withReceiver (s : State) : pollCommit (withReceiver r s) = withReceiver r (pollCommit s) := by
  have hgathered : gathered (withReceiver r s) = gathered s := rfl
  rw [pollCommit, hgathered, decodeFrame_withReceiver]
  rfl

theorem pollWhole_withReceiver {s : State} (hb : Indistinguishable s r.1) :
    pollWhole (withReceiver r s) = withReceiver r (pollWhole s) := by
  have hready : (withReceiver r s).ready = s.ready := rfl
  unfold pollWhole
  rw [hready]
  split
  · next hr =>
    have hsnap : snapshot (withReceiver r s) = snapshot s :=
      congrArg Vector.ofFn (funext fun j => (hb.sampled (.inl hr) j).symm)
    rw [hsnap]
    exact decodeFrame_withReceiver r _ (clearReady s)
  · rfl

theorem pollSample_withReceiver {j : Fin 18} {s : State} (hj : s.buf[slotIndex j] = r.1[slotIndex j]) :
    pollSample j (withReceiver r s) = withReceiver r (pollSample j s) := by
  simp only [pollSample, bufRead, hj]
  rfl

theorem received_withReceiver {data : Byte} {ts : Timestamp} {s : State}
    (hx : storeIndex ts (withReceiver r s) = storeIndex ts s) :
    received data ts (withReceiver r s) =
      withReceiver (r.1.set (storeIndex ts s).val data (storeIndex ts s).isLt, ts) (received data ts s) := by
  simp only [received, hx]
  rfl

theorem takeWord_withReceiver (a : Action) (s : State) :
    takeWord a (withReceiver r s) = withReceiver r (takeWord a s) := by
  unfold takeWord
  split <;> rfl

/-- The consumer's commands, with another buffer and timestamp. -/
theorem issueCommand_consumer_withReceiver {w : CmdWord} {s s' : State} (hi : s.pphase = .idle)
    (hb : Indistinguishable s r.1) (h : issueCommand .consumer w s = .next s') :
    issueCommand .consumer w (withReceiver r s) = .next (withReceiver r s') := by
  have hi' : (withReceiver r s).pphase = .idle := hi
  cases hd : decode .consumer w with
  | error e =>
    rw [issueCommand_error hd] at h ⊢
    cases h
    rfl
  | ok i =>
    rw [issueCommand_ok hd] at h ⊢
    obtain rfl | ⟨idx, rfl⟩ := decode_consumer_cases hd
    · rw [exec, execPoll_idle hi] at h
      rw [exec, execPoll_idle hi', ← Host.Outcome.next.inj h, pollWhole_withReceiver r hb, pollTest_withReceiver]
      exact congrArg Host.Outcome.next (apply_ite (withReceiver r) _ _ _).symm
    · rw [exec, execRead_idle idx hi] at h
      rw [exec, execRead_idle idx hi', ← Host.Outcome.next.inj h]
      rfl

end

/-- A SAMPLE is taken while a POLL gathers (R103). -/
theorem gather_of_sample {s : State} {j : Fin 18} (ha : nextAction s = .sample j) : s.pphase = .gather := by
  obtain ⟨t, h⟩ := everyStepHasNextState s
  cases step_cases h with
  | sample _ _ _ _ hg => exact hg
  | noTurn _ ha' | producerSilent _ _ _ ha' | producerWord _ _ _ _ _ ha' | consumerSilent _ _ _ _ _ ha'
  | consumerWord _ _ _ _ _ _ _ ha' | clear _ _ _ _ ha' | commitTrue _ _ _ _ _ ha' | commitFalse _ _ _ _ _ ha'
  | rst _ _ ha' => cases ha.symm.trans ha'

/-- The producer's commands, with another buffer and timestamp, the turn and the word taken. -/
theorem issueCommand_producer_withReceiver {w : CmdWord} {s s' : State} {r : Vector Byte 21 × Timestamp}
    (ha : nextAction s = .issue .producer w) (hx : ∀ ts, storeIndex ts (withReceiver r s) = storeIndex ts s)
    (h : issueCommand .producer w (takeWord (.issue .producer w) (takeTurn s)) = .next s') :
    issueCommand .producer w (withReceiver r (takeWord (.issue .producer w) (takeTurn s))) =
      .next (withReceiver (receiverAfterStep s r) s') := by
  cases hd : decode .producer w with
  | error e =>
    rw [issueCommand_error hd] at h ⊢
    rw [receiverAfterStep_of_refused r ha hd, ← Host.Outcome.next.inj h]
    rfl
  | ok i =>
    rw [issueCommand_ok hd] at h ⊢
    obtain ⟨data, ts, rfl⟩ := decode_producer_cases hd
    rw [exec_rxByte_received] at h ⊢
    rw [receiverAfterStep_of_rxByte r (nextInstr_of_issue ha hd), ← Host.Outcome.next.inj h]
    exact congrArg Host.Outcome.next (received_withReceiver r (hx ts))

/-- Whatever the buffer and the timestamp, a step does the same, if no POLL can tell the buffers apart and an RX_BYTE
stores at the same index. -/
theorem step_withReceiver {s s' : State} {r : Vector Byte 21 × Timestamp} (hb : Indistinguishable s r.1)
    (hx : ∀ ts, storeIndex ts (withReceiver r s) = storeIndex ts s) (h : step s = .next s') :
    step (withReceiver r s) = .next (withReceiver (receiverAfterStep s r) s') := by
  have hnext : nextAction (withReceiver r s) = nextAction s := rfl
  have hturn : takeTurn (withReceiver r s) = withReceiver r (takeTurn s) := rfl
  rw [step, performNext] at h ⊢
  rw [hnext, hturn, takeWord_withReceiver]
  cases ha : nextAction s with
  | none =>
    rw [ha] at h
    rw [← Host.Outcome.next.inj h, receiverAfterStep_of_no_command r (by simp [ha]) (by simp [ha])]
    rfl
  | reset =>
    rw [ha] at h
    rw [← Host.Outcome.next.inj h, receiverAfterStep_of_reset r ha]
    rfl
  | clear =>
    rw [ha] at h
    rw [← Host.Outcome.next.inj h, receiverAfterStep_of_no_command r (by simp [ha]) (by simp [ha])]
    rfl
  | sample j =>
    rw [ha] at h
    rw [← Host.Outcome.next.inj h]
    have hj : s.buf[slotIndex j] = r.1[slotIndex j] := hb.sampled (.inr (by simp [gather_of_sample ha])) j
    rw [receiverAfterStep_of_no_command r (by simp [ha]) (by simp [ha])]
    exact congrArg Host.Outcome.next (pollSample_withReceiver (s := takeTurn s) r hj)
  | commit =>
    rw [ha] at h
    rw [← Host.Outcome.next.inj h, receiverAfterStep_of_no_command r (by simp [ha]) (by simp [ha])]
    exact congrArg Host.Outcome.next (pollCommit_withReceiver r (takeTurn s))
  | issue p w =>
    rw [ha] at h
    cases p with
    | consumer =>
      rw [receiverAfterStep_of_other r (nextInstr_ne_rxByte_of_consumer ha) (by simp [ha])]
      exact issueCommand_consumer_withReceiver (s := takeWord (.issue .consumer w) (takeTurn s)) r
        (consumerIssuesOnlyWhenIdle.1 s w ha) hb h
    | producer => exact issueCommand_producer_withReceiver ha hx h

/-- The buffer and the timestamp after a step, from those before it. -/
theorem receiver_after_step {s s' : State} (h : step s = .next s') :
    (s'.buf, s'.tLast) = receiverAfterStep s (s.buf, s.tLast) := by
  have hself : step s = .next (withReceiver (receiverAfterStep s (s.buf, s.tLast)) s') :=
    step_withReceiver (r := (s.buf, s.tLast)) (.inl fun _ => rfl) (fun _ => rfl) h
  have hs' : s' = withReceiver (receiverAfterStep s (s.buf, s.tLast)) s' := Host.Outcome.next.inj (h.symm.trans hself)
  exact (congrArg (fun u : State => (u.buf, u.tLast)) hs').trans rfl

/-! ### Another buffer (R35, R71) -/

/-- The same step with another buffer: both store one byte at the same index, or both have the reset buffer, or both
leave their buffers. -/
theorem step_of_sameButBuf {s t s' : State} (hsame : SameButBuf s t) (hb : Indistinguishable s t.buf)
    (h : step s = .next s') :
    ∃ t', step t = .next t' ∧ SameButBuf s' t' ∧
      ((∃ data ts, s'.buf = s.buf.set (storeIndex ts s).val data ∧ t'.buf = t.buf.set (storeIndex ts s).val data ∧
          s'.cursor = cursorAfter (storeIndex ts s) ∧ s'.ready = if storeIndex ts s = 20 then true else s.ready) ∨
        s'.buf = t'.buf ∨
        (s'.buf = s.buf ∧ t'.buf = t.buf ∧ s'.cursor = s.cursor ∧ (s'.ready = true → s.ready = true))) := by
  have hstep := step_withReceiver (r := (t.buf, s.tLast)) hb (fun _ => rfl) h
  have hs' := receiver_after_step h
  have ht : withReceiver (t.buf, s.tLast) s = t := hsame.symm
  rw [ht] at hstep
  obtain ⟨data, ts, hrx, hcursor, hready⟩ | ⟨ha, -⟩ | ⟨hrx, ha, hcursor, hready⟩ := step_receive_cases h
  · rw [receiverAfterStep_of_rxByte _ hrx] at hstep hs'
    obtain ⟨hbuf, hlast⟩ := Prod.mk.inj hs'
    refine ⟨_, hstep, ?_, .inl ⟨data, ts, hbuf, rfl, hcursor, hready⟩⟩
    rw [SameButBuf, withReceiver, ← hlast]
  · rw [receiverAfterStep_of_reset _ ha] at hstep hs'
    obtain ⟨hbuf, hlast⟩ := Prod.mk.inj hs'
    refine ⟨_, hstep, ?_, .inr (.inl hbuf)⟩
    rw [SameButBuf, withReceiver, ← hlast]
  · rw [receiverAfterStep_of_other _ hrx ha] at hstep hs'
    obtain ⟨hbuf, hlast⟩ := Prod.mk.inj hs'
    refine ⟨_, hstep, ?_, .inr (.inr ⟨hbuf, rfl, hcursor, hready⟩)⟩
    rw [SameButBuf, withReceiver, ← hlast]

theorem SameButBuf.of_buf_eq {s t : State} (h : SameButBuf s t) (hbuf : s.buf = t.buf) : t = s := by
  rw [h, ← hbuf]

/-- Bytes that agree below an index still do, and at it, after one store there. -/
theorem getElem_set_congr {a b : Vector Byte 21} {c : Fin 21} (data : Byte) {k : Fin 21} (h : k ≠ c → a[k] = b[k]) :
    (a.set c.val data c.isLt)[k] = (b.set c.val data c.isLt)[k] := by
  by_cases hk : k = c
  · subst hk; simp
  · have hne : c.val ≠ k.val := fun e => hk (Fin.ext e.symm)
    simpa [hne] using h hk

/-- A store at an index up to which buffers agree leaves them agreeing below the next cursor, or everywhere once the last
index is stored. -/
theorem set_agree {a b : Vector Byte 21} {c : Fin 21} (data : Byte) (h : ∀ k : Fin 21, k.val < c.val → a[k] = b[k]) :
    (c = 20 → a.set c.val data c.isLt = b.set c.val data c.isLt) ∧
    (∀ k : Fin 21, k.val < (cursorAfter c).val → (a.set c.val data c.isLt)[k] = (b.set c.val data c.isLt)[k]) := by
  have hupto : ∀ k : Fin 21, k.val ≤ c.val → (a.set c.val data c.isLt)[k] = (b.set c.val data c.isLt)[k] :=
    fun k hk => getElem_set_congr data fun hne => h k (lt_of_le_of_ne hk fun e => hne (Fin.ext e))
  constructor
  · rintro rfl
    exact Vector.ext fun n hn => hupto ⟨n, hn⟩ (Nat.le_of_lt_succ hn)
  · intro k hk
    rw [cursorAfter_val] at hk
    refine hupto k ?_
    split_ifs at hk with h20
    · rw [h20]; exact hk.le
    · omega

/-- Settles O21: a byte is stored at the cursor or at 0, so the part in which the buffers agree grows with the cursor,
and is the whole buffer when `ready` rises. -/
theorem hiddenBufferDifferenceStaysHidden : Obligations.HiddenBufferDifferenceStaysHidden := by
  refine ⟨fun s buf h0 hready hidle => ⟨rfl, .inr ⟨hready, hidle, fun k hk => absurd hk (by simp [h0])⟩⟩, ?_⟩
  rintro s t s' ⟨hsame, heq | ⟨hready, hidle, hbelow⟩⟩ h
  · rw [hsame.of_buf_eq heq]
    exact ⟨s', h, ⟨rfl, .inl rfl⟩, rfl, rfl⟩
  · obtain ⟨t', hstep, hsame', hbufs⟩ := step_of_sameButBuf hsame (.inr ⟨hready, hidle⟩) h
    have hidle' : s'.pphase = .idle := step_keeps_idle (.inr hready) hidle h
    refine ⟨t', hstep, ⟨hsame', ?_⟩, by rw [hsame'], by rw [hsame']⟩
    obtain ⟨data, ts, hs, ht, hcursor, hready'⟩ | heq | ⟨hs, ht, hcursor, hready'⟩ := hbufs
    · have hupto : ∀ k : Fin 21, k.val < (storeIndex ts s).val → s.buf[k] = t.buf[k] := by
        intro k hk
        obtain h0 | hc := storeIndex_eq_zero_or ts s
        · simp [h0] at hk
        · exact hbelow k (hc ▸ hk)
      obtain ⟨hall, hnext⟩ := set_agree data hupto
      rw [hs, ht, hcursor, hready']
      by_cases h20 : storeIndex ts s = 20
      · exact .inl (hall h20)
      · exact .inr ⟨by rw [if_neg h20, hready], hidle', hnext⟩
    · exact .inl heq
    · rw [hs, ht, hcursor]
      exact .inr ⟨Bool.eq_false_iff.2 fun hr => absurd (hready.symm.trans (hready' hr)) (by decide), hidle', hbelow⟩

/-- Settles O22: the two steps store the same byte or none, so the sampled indices still agree. -/
theorem unsampledBytesHaveNoEffect : Obligations.UnsampledBytesHaveNoEffect := by
  constructor
  · intro k
    rw [slotIndex_range]
    revert k
    decide
  · rintro s t s' ⟨hsame, hsampled⟩ h
    obtain ⟨t', hstep, hsame', hbufs⟩ := step_of_sameButBuf hsame (.inl hsampled) h
    refine ⟨t', hstep, ⟨hsame', fun j => ?_⟩, by rw [hsame'], by rw [hsame']⟩
    obtain ⟨data, ts, hs, ht, -⟩ | heq | ⟨hs, ht, -⟩ := hbufs
    · rw [hs, ht]
      exact getElem_set_congr data fun _ => hsampled j
    · rw [heq]
    · rw [hs, ht]
      exact hsampled j

/-! ### Another timestamp (R36) -/

theorem storeIndex_of_cursor_zero {s : State} (ts : Timestamp) (h : s.cursor = 0) : storeIndex ts s = 0 :=
  (storeIndex_eq_zero_or ts s).elim id fun e => e.trans h

/-- Settles O23: with the cursor at 0 an RX_BYTE stores at 0 whatever its gap, and overwrites the timestamp; so does a
reset, and no other step reads or writes it. -/
theorem resetTimestampIsUnobservable : Obligations.ResetTimestampIsUnobservable := by
  intro s s' x h0 h
  have hx : ∀ ts, storeIndex ts (withReceiver (s.buf, x) s) = storeIndex ts s :=
    fun ts => (storeIndex_of_cursor_zero (s := withReceiver (s.buf, x) s) ts h0).trans
      (storeIndex_of_cursor_zero ts h0).symm
  have hstep := step_withReceiver (r := (s.buf, x)) (.inl fun _ => rfl) hx h
  have hs' := receiver_after_step h
  refine ⟨_, hstep, ?_⟩
  obtain ⟨data, ts, hrx, -⟩ | ⟨ha, -⟩ | ⟨hrx, ha, hcursor, -⟩ := step_receive_cases h
  · rw [receiverAfterStep_of_rxByte _ hrx] at hs' ⊢
    exact .inl (hs' ▸ rfl)
  · rw [receiverAfterStep_of_reset _ ha] at hs' ⊢
    exact .inl (hs' ▸ rfl)
  · rw [receiverAfterStep_of_other _ hrx ha] at hs' ⊢
    obtain ⟨hbuf, -⟩ := Prod.mk.inj hs'
    refine .inr ⟨hcursor.trans h0, ?_⟩
    rw [withReceiver, ← hbuf]

end Sys2Proof.Machine
end

section
/-! SUPPORT. A POLL from its issue to its end: in one step of the atomic variant (R100, R109), in the 21 consumer turns of
a baseline POLL that no RX_BYTE interrupts, in any order of its samples (R101 to R108), and in as many turns as it has
left when RX_BYTEs fall between (R148). -/

namespace Sys2Proof.Machine

/-! ### The one function of the operation rule -/

/-- What the one function of R100 writes. -/
theorem pollWhole_eq (s : State) : pollWhole s =
    { s with
      ready := false
      ch := if s.ready = true ∧ s.buf[0] = 0xA8 ∧ s.buf[19] = 0x00 then channelsOf (snapshot s) else s.ch
      responses := .pollNew (s.ready && valid s.buf[0] s.buf[19]) :: s.responses } := by
  simp only [← valid_iff]
  obtain ⟨hr, e⟩ | ⟨hr, hv, e⟩ | ⟨hr, hv, e⟩ := pollWhole_cases s
  · rw [e, respond]; simp [hr]
  · simp [e, hr, hv, respond, chCommit, clearReady]
  · simp [e, hr, hv, respond, clearReady]

theorem pollWhole_of_not_ready {s : State} (hr : s.ready = false) : pollWhole s = respond (.pollNew false) s :=
  if_neg (by simp [hr])

theorem pollWhole_of_ready {s : State} (hr : s.ready = true) : pollWhole s = decodeFrame (snapshot s) (clearReady s) :=
  if_pos hr

theorem pollWhole_of_markers {s : State} (hr : s.ready = true) (hm : s.buf[0] = 0xA8 ∧ s.buf[19] = 0x00) :
    pollWhole s = { s with
      ready := false
      ch := Vector.ofFn fun i : Fin 8 => scale (s.buf[3 + 2 * i.val] ++ s.buf[4 + 2 * i.val])
      responses := .pollNew true :: s.responses } := by
  rw [pollWhole_eq, if_pos ⟨hr, hm⟩, valid_iff.mpr hm, hr, channelsOf_snapshot]
  rfl

theorem pollWhole_of_no_markers {s : State} (hr : s.ready = true) (hm : ¬ (s.buf[0] = 0xA8 ∧ s.buf[19] = 0x00)) :
    pollWhole s = { s with ready := false, responses := .pollNew false :: s.responses } := by
  rw [pollWhole_eq, if_neg fun h => hm h.2, valid_eq_false_iff.2 hm, hr]
  rfl

/-- In the atomic variant, and in the baseline with no frame pending, the POLL ends in its first step (R101, R109). -/
theorem exec_poll_whole {s : State} (h : s.cfg.pollAtomic = true ∨ s.ready = false) (hi : s.pphase = .idle) :
    exec .poll s = .next (pollWhole s) := by
  rw [exec, execPoll_idle hi]
  congr 1
  split_ifs with ha
  · rfl
  · have hr : s.ready = false := h.resolve_left ha
    rw [pollWhole_of_not_ready hr, pollTest, if_neg (by simp [hr])]

/-- Settles O33: a POLL of the atomic variant is the one function, which `ready` and the two markers decide. -/
theorem atomicPollResult : Obligations.AtomicPollResult := by
  intro s ha hi
  rw [exec_poll_whole (.inl ha) hi]
  congr 1
  split_ifs with hr hm
  · exact pollWhole_of_not_ready hr
  · exact pollWhole_of_markers (by simpa using hr) hm
  · exact pollWhole_of_no_markers (by simpa using hr) hm

/-! ### Gathering without interruption -/

/-- Every sample taken so far is the byte the buffer holds. -/
def SampledFromBuf (s : State) : Prop := ∀ (j : Fin 18) (b : Byte), s.smp[j] = some b → b = s.buf[slotIndex j]

theorem sampledFromBuf_of_empty {s : State} (h : s.smp = emptySmp) : SampledFromBuf s :=
  fun j b hj => by rw [h, emptySmp_getElem] at hj; cases hj

theorem sampledFromBuf_pollSample {s : State} (h : SampledFromBuf s) (j : Fin 18) : SampledFromBuf (pollSample j s) := by
  intro k b hk
  by_cases hkj : k = j
  · subst hkj
    simpa using hk.symm
  · have hne : j.val ≠ k.val := fun e => hkj (Fin.ext e.symm)
    exact h k b (by simpa [hne] using hk)

/-- With every sample taken from the buffer as it stands, the samples are the snapshot. -/
theorem smp_eq_snapshot {s : State} (h : SampledFromBuf s) (hn : pendingSlots s = []) (j : Fin 18) :
    s.smp[j] = some (snapshot s)[j] := by
  cases hj : s.smp[j] with
  | none => exact absurd hj (pendingSlots_eq_nil.1 hn j)
  | some b => rw [snapshot_getElem, h j b hj]

/-- The end of a POLL leaves nothing of what was sampled. -/
theorem endPoll_decodeFrame_pollSample (v : Vector Byte 18) (j : Fin 18) (s : State) :
    endPoll (decodeFrame v (pollSample j s)) = endPoll (decodeFrame v s) := by
  unfold decodeFrame
  split <;> rfl

/-- As many consumer turns as there are samples pending, and one to commit, decode the buffer as it stands, whatever the
picks (R103, R108). -/
theorem run_gather (picks : List Nat) {s : State} {rest : List Turn} (hg : s.pphase = .gather) (hb : SampledFromBuf s)
    (hlen : picks.length = (pendingSlots s).length + 1) (hs : s.schedule = consumerPicks picks ++ rest) :
    run picks.length s = .next (endPoll (decodeFrame (snapshot s) { s with schedule := rest })) := by
  induction picks generalizing s with
  | nil => simp at hlen
  | cons pick picks ih =>
    have hs' : s.schedule = .consumer pick :: (consumerPicks picks ++ rest) := hs
    cases hpick : pickSlot pick s with
    | none =>
      have hn : pendingSlots s = [] := pickSlot_eq_none.1 hpick
      obtain rfl : picks = [] := by simpa [hn] using hlen
      exact (run_one s).trans (step_of_filled hs' hg (smp_eq_snapshot hb hn))
    | some j =>
      have hpending : (pendingSlots s).length = ((pendingSlots s).erase j).length + 1 := by
        have := List.length_pos_of_mem (pickSlot_mem hpick)
        rw [List.length_erase_of_mem (pickSlot_mem hpick)]
        omega
      rw [List.length_cons, run_succ _ (step_of_sample hs' hg hpick),
        ih (s := pollSample j { s with schedule := consumerPicks picks ++ rest }) hg (sampledFromBuf_pollSample hb j)
          ?_ rfl]
      · exact congrArg Host.Outcome.next (endPoll_decodeFrame_pollSample (snapshot s) j { s with schedule := rest })
      · have hsampled : pendingSlots (pollSample j { s with schedule := consumerPicks picks ++ rest }) =
            (pendingSlots s).erase j := pendingSlots_sample rfl
        rw [hsampled]
        simp only [List.length_cons] at hlen
        omega

/-! ### A whole POLL -/

/-- `s` once the consumer has taken a turn and a word, or some turns and some words: those left are `rest` and `cmds`. -/
def consumed (cmds : List CmdWord) (rest : List Turn) (s : State) : State :=
  { s with consumerPort := cmds, schedule := rest }

/-- An idle consumer's turn with a POLL at its port. -/
theorem step_of_consumer_poll {s : State} {pick : Nat} {rest : List Turn} {cmds : List CmdWord}
    (hs : s.schedule = .consumer pick :: rest) (hi : s.pphase = .idle) (hp : s.consumerPort = encode .poll :: cmds) :
    step s = exec .poll (consumed cmds rest s) :=
  (step_of_consumer_word hs hi hp).trans (issueCommand_ok (decode_encode .poll))

/-- The POLL that ends in its first step. -/
theorem step_whole_poll {s : State} {pick : Nat} {rest : List Turn} {cmds : List CmdWord}
    (h : s.cfg.pollAtomic = true ∨ s.ready = false) (hs : s.schedule = .consumer pick :: rest) (hi : s.pphase = .idle)
    (hp : s.consumerPort = encode .poll :: cmds) : step s = .next (pollWhole (consumed cmds rest s)) :=
  (step_of_consumer_poll hs hi hp).trans (exec_poll_whole (s := consumed cmds rest s) h hi)

/-- The end of a POLL that has cleared `ready` leaves nothing else of its steps. -/
theorem endPoll_decodeFrame_pollClear (v : Vector Byte 18) (cmds : List CmdWord) (turns rest : List Turn) (s : State) :
    endPoll (decodeFrame v { pollClear { consumed cmds turns s with pphase := .tested } with schedule := rest }) =
      endPoll (decodeFrame v (clearReady (consumed cmds rest s))) := by
  unfold decodeFrame
  split <;> rfl

/-- A baseline POLL with a frame pending ends in its 21st turn: TEST, CLEAR, 18 samples, COMMIT (R101 to R108). -/
theorem run_baseline_poll {s : State} {picks : List Nat} {rest : List Turn} {cmds : List CmdWord}
    (ha : s.cfg.pollAtomic = false) (hr : s.ready = true) (hi : s.pphase = .idle)
    (hp : s.consumerPort = encode .poll :: cmds) (hlen : picks.length = 21)
    (hs : s.schedule = consumerPicks picks ++ rest) :
    run 21 s = .next (endPoll (pollWhole (consumed cmds rest s))) := by
  match picks, hlen with
  | first :: second :: picks, hlen =>
    have htest : step s = .next { consumed cmds (consumerPicks (second :: picks) ++ rest) s with pphase := .tested } :=
      (step_of_consumer_poll hs hi hp).trans ((pollTestStep (consumed cmds _ s) ha hi).2 hr)
    have hclear := step_of_tested
      (s := { consumed cmds (consumerPicks (second :: picks) ++ rest) s with pphase := .tested }) rfl rfl
    have hlen' : picks.length = 19 := by simpa using hlen
    have hgather := run_gather picks
      (s := pollClear { consumed cmds (consumerPicks picks ++ rest) s with pphase := .tested }) rfl
      (sampledFromBuf_of_empty rfl) (by rw [hlen', pendingSlots_of_empty rfl]; simp) rfl
    rw [run_succ 20 htest, run_succ 19 hclear, ← hlen', pollWhole_of_ready (s := consumed cmds rest s) hr]
    exact hgather.trans (congrArg Host.Outcome.next (endPoll_decodeFrame_pollClear _ cmds _ rest s))

/-- Settles O34: the 21 turns are the one function, with the POLL ended. -/
theorem uninterruptedPollDecodesBuffer : Obligations.UninterruptedPollDecodesBuffer := by
  intro s picks cmds rest ha hi hr hp hlen hs
  rw [run_baseline_poll ha hr hi hp hlen hs]
  congr 1
  split_ifs with hm
  · rw [pollWhole_of_markers (s := consumed cmds rest s) hr hm, endPoll, ← hi]
    rfl
  · rw [pollWhole_of_no_markers (s := consumed cmds rest s) hr hm, endPoll, ← hi]
    rfl

end Sys2Proof.Machine
end

section
/-! SUPPORT. Polls in a row (R113), a POLL with RX_BYTEs between its steps (R148), and the atomic variant as a part of the
baseline (R109). -/

namespace Sys2Proof.Machine

/-! ### Polls in a row -/

/-- How many turns an uninterrupted POLL takes (R101, R109, R148). -/
def pollTurns (s : State) : Nat := if s.cfg.pollAtomic = true ∨ s.ready = false then 1 else 21

/-- The state `t` after an uninterrupted POLL issued in `s`, with `cmds` and `rest` the consumer's words and the turns
left. -/
structure AfterPoll (s : State) (cmds : List CmdWord) (rest : List Turn) (t : State) : Prop where
  ready : t.ready = false
  pphase : t.pphase = .idle
  cursor : t.cursor = s.cursor
  tLast : t.tLast = s.tLast
  refused : t.refused = s.refused
  consumerPort : t.consumerPort = cmds
  schedule : t.schedule = rest
  ch : t.ch = if s.ready = true ∧ s.buf[0] = 0xA8 ∧ s.buf[19] = 0x00 then channelsOf (snapshot s) else s.ch
  responses : t.responses = .pollNew (s.ready && valid s.buf[0] s.buf[19]) :: s.responses

theorem afterPoll_pollWhole {s : State} (cmds : List CmdWord) (rest : List Turn) (hi : s.pphase = .idle) :
    AfterPoll s cmds rest (pollWhole (consumed cmds rest s)) := by
  rw [pollWhole_eq]
  exact ⟨rfl, hi, rfl, rfl, rfl, rfl, rfl, rfl, rfl⟩

theorem AfterPoll.endPoll {s t : State} {cmds : List CmdWord} {rest : List Turn} (h : AfterPoll s cmds rest t) :
    AfterPoll s cmds rest (endPoll t) :=
  { h with pphase := rfl }

/-- An uninterrupted POLL in either variant. -/
theorem run_poll {s : State} {picks : List Nat} {rest : List Turn} {cmds : List CmdWord} (hi : s.pphase = .idle)
    (hp : s.consumerPort = encode .poll :: cmds) (hlen : picks.length = pollTurns s)
    (hs : s.schedule = consumerPicks picks ++ rest) :
    ∃ t, run (pollTurns s) s = .next t ∧ AfterPoll s cmds rest t := by
  unfold pollTurns at *
  split_ifs at hlen with h
  · match picks, hlen with
    | [pick], _ =>
      rw [if_pos h, run_one, step_whole_poll h hs hi hp]
      exact ⟨_, rfl, afterPoll_pollWhole cmds rest hi⟩
  · obtain ⟨ha, hr⟩ : s.cfg.pollAtomic = false ∧ s.ready = true := by simpa using h
    rw [if_neg h, run_baseline_poll ha hr hi hp hlen hs]
    exact ⟨_, rfl, (afterPoll_pollWhole cmds rest hi).endPoll⟩

/-- The turns after which one more is left. -/
theorem exists_consumerPicks_concat {picks : List Nat} {n : Nat} (h : picks.length = n + 1) :
    ∃ init last, init.length = n ∧
      ∀ rest, consumerPicks picks ++ rest = consumerPicks init ++ .consumer last :: rest := by
  obtain ⟨init, last, rfl⟩ := (List.eq_nil_or_concat picks).resolve_left (by rintro rfl; simp at h)
  exact ⟨init, last, by simpa using h, by simp [consumerPicks]⟩

/-- Settles O40: the first POLL clears `ready`, in either variant, and the second finds it clear. -/
theorem secondPollReturnsFalse : Obligations.SecondPollReturnsFalse := by
  intro s picks cmds rest hi hp hlen hs
  have hlen' : picks.length = pollTurns s + 1 := by
    rw [hlen, pollTurns]
    split_ifs <;> rfl
  obtain ⟨init, last, hinit, happend⟩ := exists_consumerPicks_concat hlen'
  obtain ⟨t, hfirst, ht⟩ := run_poll (rest := .consumer last :: rest) hi hp hinit (hs.trans (happend rest))
  have hsecond := step_whole_poll (.inr ht.ready) ht.schedule ht.pphase ht.consumerPort
  have hu := afterPoll_pollWhole cmds rest ht.pphase
  refine ⟨_, s.ready && valid s.buf[0] s.buf[19], ?_, ?_, hu.ready, hu.pphase, hu.consumerPort⟩
  · rw [hlen', run_add _ 1 hfirst, run_one, hsecond]
  · rw [hu.responses, ht.ready, ht.responses]
    rfl

/-! ### A POLL with RX_BYTEs between its steps -/

theorem pollStepsLeft_eq_zero_iff {s : State} : pollStepsLeft s = 0 ↔ s.pphase = .idle := by
  unfold pollStepsLeft
  split <;> simp [*]

theorem pollStepsLeft_le (s : State) : pollStepsLeft s ≤ 20 := by
  have hpending : (pendingSlots s).length ≤ (List.finRange 18).length := List.length_filter_le _ _
  rw [List.length_finRange] at hpending
  unfold pollStepsLeft
  split <;> omega

theorem pollStepsLeft_congr {s t : State} (hp : t.pphase = s.pphase) (hs : t.smp = s.smp) :
    pollStepsLeft t = pollStepsLeft s := by
  simp only [pollStepsLeft, hp, pendingSlots_congr hs]

theorem pollStepsLeft_of_gather {s : State} (hg : s.pphase = .gather) :
    pollStepsLeft s = (pendingSlots s).length + 1 := by
  simp only [pollStepsLeft, hg]

/-- Each consumer turn takes one of the steps left, and no word (R48, R148). -/
theorem consumer_turn_pollStepsLeft {s t : State} {pick : Nat} {rest : List Turn} (h : step s = .next t)
    (hs : s.schedule = .consumer pick :: rest) (hi : s.pphase ≠ .idle) : pollStepsLeft s = pollStepsLeft t + 1 := by
  cases step_cases h with
  | clear _ _ _ htested _ ht =>
    have hpending : pendingSlots t = List.finRange 18 := pendingSlots_of_empty (by rw [ht]; rfl)
    rw [pollStepsLeft_of_gather (s := t) (by rw [ht]; rfl), hpending, pollStepsLeft, htested, List.length_finRange]
  | sample pick' rest' j _ hg hj _ ht =>
    have hpending : pendingSlots t = (pendingSlots s).erase j := pendingSlots_sample (by rw [ht]; rfl)
    have hpos := List.length_pos_of_mem (pickSlot_mem hj)
    rw [pollStepsLeft_of_gather hg, pollStepsLeft_of_gather (s := t) (by rw [ht]; exact hg), hpending,
      List.length_erase_of_mem (pickSlot_mem hj)]
    omega
  | commitTrue _ _ _ hg hn _ _ ht | commitFalse _ _ _ hg hn _ _ ht =>
    rw [pollStepsLeft_of_gather hg, hn, pollStepsLeft_eq_zero_iff.2 (by rw [ht]; rfl)]
    rfl
  | consumerSilent _ _ _ hi' | consumerWord _ _ _ _ _ hi' => exact absurd hi' hi
  | noTurn hs' | producerSilent _ hs' | producerWord _ _ _ hs' | rst _ hs' => cases hs.symm.trans hs'

/-- A producer's turn leaves the consumer's words. -/
theorem producer_turn_consumerPort {s t : State} {rest : List Turn} (h : step s = .next t)
    (hs : s.schedule = .producer :: rest) : t.consumerPort = s.consumerPort := by
  cases step_cases h with
  | producerSilent _ _ _ _ ht => simp [ht]
  | producerWord _ _ _ _ _ _ hi =>
    obtain ⟨-, -, hport, -⟩ := hi.inputs_eq
    exact hport
  | noTurn hs' | consumerSilent _ _ hs' | consumerWord _ _ _ _ hs' | clear _ _ hs' | sample _ _ _ hs'
  | commitTrue _ _ hs' | commitFalse _ _ hs' | rst _ hs' => cases hs.symm.trans hs'

/-- With as many consumer turns as the POLL has steps left, and any producer turns between, the POLL ends and no consumer
word is taken. -/
theorem run_poll_to_end (turns : List Turn) {s : State} {rest : List Turn} (hs : s.schedule = turns ++ rest)
    (hrst : ∀ u ∈ turns, u ≠ .rst) (hleft : consumerTurns turns = pollStepsLeft s) :
    ∃ t, run turns.length s = .next t ∧ t.pphase = .idle ∧ t.consumerPort = s.consumerPort := by
  induction turns generalizing s with
  | nil => exact ⟨s, rfl, pollStepsLeft_eq_zero_iff.1 hleft.symm, rfl⟩
  | cons turn turns ih =>
    obtain ⟨hturn, hrst'⟩ := List.forall_mem_cons.1 hrst
    obtain ⟨u, hu⟩ := everyStepHasNextState s
    have hsched : u.schedule = turns ++ rest := by rw [(step_schedule_cfg hu).1, hs]; rfl
    have hkeep : consumerTurns turns = pollStepsLeft u ∧ u.consumerPort = s.consumerPort := by
      cases turn with
      | rst => exact absurd rfl hturn
      | producer =>
        obtain ⟨-, hphase, hsmp, -⟩ := producer_turn_frame hu hs
        exact ⟨hleft.trans (pollStepsLeft_congr hphase hsmp).symm, producer_turn_consumerPort hu hs⟩
      | consumer pick =>
        have hbusy : s.pphase ≠ .idle := fun hi =>
          absurd (hleft.trans (pollStepsLeft_eq_zero_iff.2 hi)) (Nat.succ_ne_zero _)
        have hstep := consumer_turn_pollStepsLeft hu hs hbusy
        exact ⟨Nat.succ.inj (hleft.trans hstep), (consumerIssuesOnlyWhenIdle.2 s u pick _ hs hbusy hu).2⟩
    obtain ⟨t, hrun, hidle, hport⟩ := ih hsched hrst' hkeep.1
    exact ⟨t, (run_succ _ hu).trans hrun, hidle, hport.trans hkeep.2⟩

/-- Settles O39: the steps left are a measure that each consumer turn lowers by one and no RX_BYTE changes. -/
theorem pollEndsInBoundedSteps : Obligations.PollEndsInBoundedSteps :=
  ⟨fun _ => pollStepsLeft_eq_zero_iff, pollStepsLeft_le, fun _ turns _ => run_poll_to_end turns⟩

/-! ### The atomic variant as a part of the baseline -/

/-- A command other than a POLL that finds a frame pending does the same in the baseline. -/
theorem Issued.asBaseline {p : Port} {w : CmdWord} {s t : State} (h : Issued p w s t) (more : List Turn)
    (hpoll : decode p w = .ok .poll → s.ready = false) :
    Issued p w (asBaseline s more) (asBaseline t more) := by
  cases h with
  | refused r hd ht => exact .refused r hd (ht ▸ rfl)
  | rxByte data ts cursor hp hd hc ht => exact .rxByte data ts cursor hp hd hc (ht ▸ rfl)
  | pollNone hp hd hr ht => exact .pollNone hp hd hr (ht ▸ rfl)
  | read idx hp hd ht => exact .read idx hp hd (ht ▸ rfl)
  | pollTested _ hd _ hr | pollTrue _ hd _ hr | pollFalse _ hd _ hr =>
    exact absurd (hr.symm.trans (hpoll hd)) (by decide)

/-- The block of a POLL that finds a frame pending: the turn and 20 more of the consumer's. -/
theorem baseline_block_of_poll {s : State} {cmds : List CmdWord} (pick : Nat) (rest : List Turn)
    (hi : s.pphase = .idle) (hsmp : s.smp = emptySmp) (hr : s.ready = true) (hp : s.consumerPort = encode .poll :: cmds)
    (more : List Turn) :
    run 21 (asBaseline s (consumerPicks (pick :: List.replicate 20 0) ++ more)) =
      .next (asBaseline (pollWhole (consumed cmds rest s)) more) := by
  rw [run_baseline_poll (s := asBaseline s _) rfl hr hi hp (by simp) rfl, pollWhole_eq, pollWhole_eq]
  congr 1
  simp only [endPoll, asBaseline, consumed, hi, hsmp]
  rfl

/-- Settles O35: a POLL that finds a frame pending is the 21 turns of the baseline POLL, and every other step is the same
step of the baseline. -/
theorem atomicStepIsBaselineBlock : Obligations.AtomicStepIsBaselineBlock := by
  intro s t turn rest ha hi hsmp hs h
  have single (hstep : ∀ more, step (asBaseline s (turn :: more)) = .next (asBaseline t more)) :
      ∃ block : List Turn,
        (block = [turn] ∨ ∃ pick picks, turn = .consumer pick ∧ block = consumerPicks (pick :: picks)) ∧
        ∀ more : List Turn, run block.length (asBaseline s (block ++ more)) = .next (asBaseline t more) :=
    ⟨[turn], .inl rfl, fun more => (run_one _).trans (hstep more)⟩
  cases step_cases h with
  | noTurn hs' => cases hs.symm.trans hs'
  | producerSilent _ hs' hp _ ht =>
    cases hs.symm.trans hs'
    exact single fun more => by rw [step_of_producer_silent (s := asBaseline s _) rfl hp, ht]; rfl
  | consumerSilent _ _ hs' _ hp _ ht =>
    cases hs.symm.trans hs'
    exact single fun more => by rw [step_of_consumer_silent (s := asBaseline s _) rfl hi hp, ht]; rfl
  | rst _ hs' _ ht =>
    cases hs.symm.trans hs'
    exact single fun more => by rw [step_of_rst (s := asBaseline s _) rfl, ht]; rfl
  | producerWord _ w _ hs' hp _ hw =>
    cases hs.symm.trans hs'
    refine single fun more => ?_
    rw [step_of_producer_word (s := asBaseline s _) rfl hp]
    refine (hw.asBaseline more fun hd => ?_).issueCommand_eq (by simp)
    obtain ⟨_, _, hrx⟩ := decode_producer_cases hd
    cases hrx
  | consumerWord pick _ w cmds hs' _ hp _ hw =>
    cases hs.symm.trans hs'
    by_cases hpoll : decode .consumer w = .ok .poll ∧ s.ready = true
    · obtain ⟨hd, hr⟩ := hpoll
      obtain rfl : encode .poll = w := (decodedWordIsItsEncoding _ _ _ hd).1
      have ht : t = pollWhole (consumed cmds rest s) :=
        Host.Outcome.next.inj (h.symm.trans (step_whole_poll (.inl ha) hs hi hp))
      refine ⟨consumerPicks (pick :: List.replicate 20 0), .inr ⟨pick, _, rfl, rfl⟩, fun more => ?_⟩
      rw [ht]
      exact baseline_block_of_poll pick rest hi hsmp hr hp more
    · refine single fun more => ?_
      rw [step_of_consumer_word (s := asBaseline s _) rfl hi hp]
      refine (hw.asBaseline more fun hd => ?_).issueCommand_eq fun _ => hi
      simpa [hd] using hpoll
  | clear _ _ _ hi' | sample _ _ _ _ hi' | commitTrue _ _ _ hi' | commitFalse _ _ _ hi' =>
    exact absurd (hi.symm.trans hi') (by decide)

/-- The turns of R109's claim: the producer's and reset's. -/
def isOutsideTurn (u : Turn) : Bool := u == .producer || u == .rst

theorem filter_isOutsideTurn_consumerPicks (picks : List Nat) : (consumerPicks picks).filter isOutsideTurn = [] := by
  simp [consumerPicks, isOutsideTurn]

/-- A block has the producer's and reset's turns of the atomic variant's one turn. -/
theorem filter_isOutsideTurn_block {block : List Turn} {turn : Turn}
    (h : block = [turn] ∨ ∃ pick picks, turn = .consumer pick ∧ block = consumerPicks (pick :: picks)) :
    block.filter isOutsideTurn = [turn].filter isOutsideTurn := by
  obtain rfl | ⟨pick, picks, rfl, rfl⟩ := h
  · rfl
  · exact filter_isOutsideTurn_consumerPicks (pick :: picks)

/-- Settles O36, by induction on the run: the blocks of its steps, one after another. -/
theorem atomicRunIsBaselineRun : Obligations.AtomicRunIsBaselineRun := by
  intro n
  induction n with
  | zero =>
    intro s t _ _ _ h
    cases h
    exact ⟨[], rfl, fun _ => rfl⟩
  | succ n ih =>
    intro s t ha hi hsmp h
    obtain ⟨u, hu⟩ := everyStepHasNextState s
    obtain ⟨hsched, hcfg⟩ := step_schedule_cfg hu
    have hiu : u.pphase = .idle := step_keeps_idle (.inl ha) hi hu
    have hsmpu : u.smp = emptySmp := step_keeps_smp_empty (fun _ => hsmp) hu (by rw [hiu]; decide)
    rw [run_succ n hu] at h
    obtain ⟨blocks, hfilter, hblocks⟩ := ih u t (hcfg ▸ ha) hiu hsmpu h
    match hs : s.schedule with
    | [] =>
      obtain rfl : u = s := Host.Outcome.next.inj (hu.symm.trans (step_of_no_turn hs))
      refine ⟨blocks, ?_, hblocks⟩
      rw [hfilter, hs]
      simp
    | turn :: rest =>
      obtain ⟨block, hblock, hrun⟩ := atomicStepIsBaselineBlock s u turn rest ha hi hsmp hs hu
      refine ⟨block ++ blocks, ?_, fun more => ?_⟩
      · rw [List.filter_append, hfilter, hsched, hs]
        change block.filter isOutsideTurn ++ _ = _
        rw [filter_isOutsideTurn_block hblock, List.tail_cons, List.take_succ_cons]
        exact (List.filter_append [turn] _).symm
      · rw [List.length_append, List.append_assoc, run_add _ _ (hrun (blocks ++ more)), hblocks more]

end Sys2Proof.Machine
end

section
/-! SUPPORT. Bytes received one after another (R71, R83 to R87, R91), and the hazards of a store around CLEAR and after a
gap (R165, R166). -/

namespace Sys2Proof.Machine

/-! ### Any sequence of bytes -/

/-- The state after the RX_BYTEs of a sequence. -/
def receivedAll : List (Byte × Timestamp) → State → State
  | [], s => s
  | b :: l, s => receivedAll l (received b.1 b.2 s)

theorem execAll_cons {i : Instr} {s u : State} (is : List Instr) (h : exec i s = .next u) :
    execAll (i :: is) s = execAll is u := by
  rw [execAll, h]

theorem execAll_rxBytes (l : List (Byte × Timestamp)) (s : State) :
    execAll (rxBytes l) s = .next (receivedAll l s) := by
  induction l generalizing s with
  | nil => rfl
  | cons b l ih => exact (execAll_cons _ (exec_rxByte_received b.1 b.2 s)).trans (ih _)

theorem receivedAll_frame (l : List (Byte × Timestamp)) (s : State) :
    receivedAll l s = { s with
      buf := (receivedAll l s).buf
      cursor := (receivedAll l s).cursor
      ready := (receivedAll l s).ready
      tLast := (receivedAll l s).tLast } := by
  induction l generalizing s with
  | nil => rfl
  | cons b l ih => exact ih (received b.1 b.2 s)

/-- Each byte leaves its own timestamp (R86). -/
theorem receivedAll_tLast (l : List (Byte × Timestamp)) (s : State) :
    (receivedAll l s).tLast = (l.map Prod.snd).getLastD s.tLast := by
  induction l generalizing s with
  | nil => rfl
  | cons b l ih =>
    rw [receivedAll, ih, List.map_cons, List.getLastD_cons]
    rfl

/-- Without gaps the cursor rises by one with each byte up to 20, and the first byte stored there raises `ready`
(R91). -/
theorem receivedAll_cursor_ready (l : List (Byte × Timestamp)) {s : State} (h : GapsWithin s.tLast l) :
    (receivedAll l s).cursor.val = min (s.cursor.val + l.length) 20 ∧
      (receivedAll l s).ready = (s.ready || decide (21 ≤ s.cursor.val + l.length)) := by
  induction l generalizing s with
  | nil =>
    have := s.cursor.isLt
    have hno : ¬ 21 ≤ s.cursor.val := by omega
    simp only [receivedAll, List.length_nil, Nat.add_zero, hno, decide_false, Bool.or_false, and_true]
    omega
  | cons b l ih =>
    obtain ⟨hgap, hrest⟩ := h
    obtain ⟨hcursor, hready⟩ := ih (s := received b.1 b.2 s) hrest
    have hval : (received b.1 b.2 s).cursor.val = if s.cursor = 20 then 20 else s.cursor.val + 1 := by
      rw [received_cursor, cursorAfter_val, storeIndex_of_no_gap hgap]
    have hflag : (received b.1 b.2 s).ready = if s.cursor = 20 then true else s.ready := by
      rw [received_ready, storeIndex_of_no_gap hgap]
    rw [receivedAll, hcursor, hready, hval, hflag, List.length_cons]
    split_ifs with h20
    · have h20' : s.cursor.val = 20 := congrArg Fin.val h20
      refine ⟨by omega, ?_⟩
      have hlast : 21 ≤ s.cursor.val + (l.length + 1) := by omega
      simp [hlast]
    · exact ⟨by omega, by rw [Nat.add_right_comm, Nat.add_assoc]⟩

/-- Settles O18: the state after the sequence has this cursor and this flag. -/
theorem cursorRisesToTwentyWithoutGaps : Obligations.CursorRisesToTwentyWithoutGaps :=
  fun l s h => ⟨_, execAll_rxBytes l s, receivedAll_cursor_ready l h⟩

/-! ### An aligned frame -/

theorem received_buf_getElem (data : Byte) (ts : Timestamp) (s : State) (k : Fin 21) :
    (received data ts s).buf[k] = if k = storeIndex ts s then data else s.buf[k] := by
  split_ifs with h
  · rw [h]; simp
  · have hne : (storeIndex ts s).val ≠ k.val := fun e => h (Fin.ext e.symm)
    simp [hne]

/-- Bytes without gaps, the first stored at index `p` and the last not beyond 20, fill the buffer from `p` in order and
leave what is below. -/
theorem receivedAll_buf (l : List (Byte × Timestamp)) {b : Byte × Timestamp} {s : State} {p : Nat}
    (hp : (storeIndex b.2 s).val = p) (hg : GapsWithin b.2 l) (hfit : p + l.length ≤ 20) (k : Fin 21) :
    (k.val < p → (receivedAll (b :: l) s).buf[k] = s.buf[k]) ∧
    (p ≤ k.val → k.val ≤ p + l.length →
      some (receivedAll (b :: l) s).buf[k] = ((b :: l).map Prod.fst)[k.val - p]?) := by
  induction l generalizing b s p with
  | nil =>
    simp only [receivedAll, received_buf_getElem, Fin.ext_iff, hp, List.length_nil, Nat.add_zero]
    refine ⟨fun hk => if_neg hk.ne, fun hle hge => ?_⟩
    obtain rfl : k.val = p := le_antisymm hge hle
    simp
  | cons b' l ih =>
    obtain ⟨hgap, hrest⟩ := hg
    rw [List.length_cons] at hfit ⊢
    have hnext : (storeIndex b'.2 (received b.1 b.2 s)).val = p + 1 := by
      rw [storeIndex_of_no_gap hgap, received_cursor, cursorAfter_val, if_neg fun h20 => ?_, hp]
      rw [h20] at hp
      change 20 = p at hp
      omega
    obtain ⟨hbelow, habove⟩ := ih hnext hrest (by omega)
    simp only [received_buf_getElem, Fin.ext_iff, hp] at hbelow
    rw [receivedAll]
    constructor
    · intro hk
      rw [hbelow (by omega), if_neg hk.ne]
    · intro hle hge
      obtain heq | hlt := eq_or_lt_of_le hle
      · rw [hbelow (by omega), if_pos heq.symm, heq]
        simp
      · have hindex : k.val - p = k.val - (p + 1) + 1 := by omega
        rw [habove hlt (by omega), hindex, List.map_cons (a := b), List.getElem?_cons_succ]

/-- An aligned frame, whatever the state: the first byte is stored at index 0 and the last at index 20. -/
theorem receivedAll_aligned {s : State} {b : Byte × Timestamp} {l : List (Byte × Timestamp)} (hlen : l.length = 20)
    (hfirst : s.cursor = 0 ∨ 5000 < (gap b.2 s.tLast).toNat) (hg : GapsWithin b.2 l) :
    (∀ k : Fin 21, some (receivedAll (b :: l) s).buf[k] = ((b :: l).map Prod.fst)[k.val]?) ∧
    receivedAll (b :: l) s = { s with
      buf := (receivedAll (b :: l) s).buf
      cursor := 20
      ready := true
      tLast := ((b :: l).map Prod.snd).getLastD 0 } := by
  have hzero : storeIndex b.2 s = 0 := hfirst.elim (storeIndex_of_cursor_zero b.2) storeIndex_of_gap
  have hone : (received b.1 b.2 s).cursor = 1 := by rw [received_cursor, hzero]; rfl
  obtain ⟨hcursor, hready⟩ := receivedAll_cursor_ready l (s := received b.1 b.2 s) hg
  rw [hone, hlen] at hcursor hready
  constructor
  · intro k
    exact (receivedAll_buf l (congrArg Fin.val hzero) hg (by omega) k).2 (Nat.zero_le _) (by omega)
  · have hc : (receivedAll (b :: l) s).cursor = 20 := Fin.ext hcursor
    have hr : (receivedAll (b :: l) s).ready = true := hready.trans (by simp)
    have ht : (receivedAll (b :: l) s).tLast = ((b :: l).map Prod.snd).getLastD 0 := by
      rw [receivedAll_tLast, List.map_cons, List.getLastD_cons, List.getLastD_cons]
    rw [← hc, ← hr, ← ht]
    exact receivedAll_frame (b :: l) s

/-- Settles O19: the first byte is stored at index 0, so the 21 bytes fill the buffer. -/
theorem alignedFrameIsReceived : Obligations.AlignedFrameIsReceived := by
  intro s b l hlen hfirst hg
  obtain ⟨hbuf, hall⟩ := receivedAll_aligned hlen hfirst hg
  exact ⟨_, execAll_rxBytes (b :: l) s, hbuf, hall⟩

/-! ### Hazards -/

/-- Settles O41: CLEAR writes `ready` whatever the store before it wrote, and the store after it sets it again. -/
theorem notificationLostBeforeClear : Obligations.NotificationLostBeforeClear := by
  intro s data ts ws pick rest htested hidx hp
  constructor
  · obtain ⟨u, hstore, hbuf, -, hphase, hsched, -⟩ := exists_step_of_producer_rxByte (.consumer pick :: rest) hp
    simp only [hidx] at hbuf
    have hclear := step_of_tested hsched (hphase.trans htested)
    exact ⟨_, (run_succ 1 hstore).trans ((run_one u).trans hclear), rfl, hbuf, rfl⟩
  · have hclear := step_of_tested (s := { s with schedule := .consumer pick :: .producer :: rest }) rfl htested
    have hstore := (step_of_producer_rxByte (s := pollClear { s with schedule := .producer :: rest }) rfl hp).trans
      (exec_rxByte_received data ts _)
    refine ⟨_, (run_succ 1 hclear).trans ((run_one _).trans hstore), ?_, ?_, rfl⟩
    · exact (received_ready data ts _).trans (if_pos hidx)
    · exact (received_buf_getElem data ts _ 20).trans (if_pos hidx.symm)

/-- Settles O42: after a gap the byte lands at index 0 and leaves `ready` and the rest of the buffer, and the POLL decodes
the buffer as it stands. -/
theorem mixedFrameDecodedAfterGap : Obligations.MixedFrameDecodedAfterGap := by
  intro s data ts ha hi hr hgap
  have hzero : storeIndex ts s = 0 := storeIndex_of_gap hgap
  have hr' : (received data ts s).ready = true := by
    rw [received_ready, hzero]
    exact hr
  have hsync : (received data ts s).buf[0] = data :=
    (received_buf_getElem data ts s 0).trans (if_pos hzero.symm)
  have hold (n : Nat) (hpos : 0 < n) (hn : n < 21) : (received data ts s).buf[n] = s.buf[n] :=
    (received_buf_getElem data ts s ⟨n, hn⟩).trans
      (if_neg fun h => absurd (congrArg Fin.val (h.trans hzero)) hpos.ne')
  have hmark := hold 19 (by omega) (by omega)
  refine ⟨_, _, exec_rxByte_received data ts s, hr', exec_poll_whole (s := received data ts s) (.inl ha) hi,
    by rw [pollWhole_eq], fun hm => ?_, fun hm => ?_⟩ <;> rw [← hsync, ← hmark] at hm
  · rw [pollWhole_of_markers hr' hm]
    refine ⟨rfl, fun i => ?_⟩
    have hhigh := hold (3 + 2 * i.val) (by omega) (by omega)
    have hlow := hold (4 + 2 * i.val) (by omega) (by omega)
    simp only [Fin.getElem_fin, Vector.getElem_ofFn, hhigh, hlow]
  · rw [pollWhole_of_no_markers hr' hm]
    exact ⟨rfl, rfl⟩

end Sys2Proof.Machine
end

section
/-! SUPPORT. READ (R130, R133), and the block's purpose: a frame received, polled and read (R71, R80 to R87, R100 to R108,
R130). -/

namespace Sys2Proof.Machine

/-! ### READ -/

theorem exec_read {s : State} (idx : Byte) (hi : s.pphase = .idle) :
    exec (.read idx) s = .next (respond (.rdValue (muxValue idx s)) s) := execRead_idle idx hi

/-- Settles O43: READ answers the mux value, an entry or the sentinel. -/
theorem readResult : Obligations.ReadResult := by
  intro s idx hi
  rw [exec_read idx hi, muxValue_eq, respond]

/-- An operation other than POLL leaves the channel table and the phase of an idle block. -/
theorem exec_keeps_ch_of_ne_poll {i : Instr} {s t : State} (hne : i ≠ .poll) (hi : s.pphase = .idle)
    (h : exec i s = .next t) : t.ch = s.ch ∧ t.pphase = .idle := by
  cases i with
  | rxByte data ts =>
    rw [exec_rxByte_received] at h
    cases h
    exact ⟨rfl, hi⟩
  | poll => exact absurd rfl hne
  | read idx =>
    rw [exec_read idx hi] at h
    cases h
    exact ⟨rfl, hi⟩

/-- A sequence that completes began with an operation that completes. -/
theorem of_execAll_cons {i : Instr} {is : List Instr} {s t : State} (h : execAll (i :: is) s = .next t) :
    ∃ u, exec i s = .next u ∧ execAll is u = .next t := by
  cases hi : exec i s with
  | next u => exact ⟨u, rfl, execAll_cons is hi ▸ h⟩
  | fault r => simp [execAll, hi] at h
  | refused r => simp [execAll, hi] at h

theorem execAll_keeps_ch (l : List Instr) {s t : State} (hl : ∀ i ∈ l, i ≠ .poll) (hi : s.pphase = .idle)
    (h : execAll l s = .next t) : t.ch = s.ch ∧ t.pphase = .idle := by
  induction l generalizing s with
  | nil =>
    cases h
    exact ⟨rfl, hi⟩
  | cons i l ih =>
    obtain ⟨hne, hl'⟩ := List.forall_mem_cons.1 hl
    obtain ⟨u, hu, hrest⟩ := of_execAll_cons h
    obtain ⟨hch, hidle⟩ := exec_keeps_ch_of_ne_poll hne hi hu
    obtain ⟨hch', hidle'⟩ := ih hl' hidle hrest
    exact ⟨hch'.trans hch, hidle'⟩

/-- Settles O45: READ answers from the channel table alone, which the sequence keeps. -/
theorem readUnaffectedByReceiveAndRead : Obligations.ReadUnaffectedByReceiveAndRead := by
  intro l s t idx hl hi h
  obtain ⟨hch, hidle⟩ := execAll_keeps_ch l hl hi h
  have hmux : muxValue idx t = muxValue idx s := by simp only [muxValue_eq, hch]
  exact ⟨muxValue idx s, _, _, exec_read idx hi, rfl, exec_read idx hidle, by rw [hmux]; rfl⟩

/-! ### The bytes of a frame and their times -/

/-- Bytes spaced by `dt` from byte number `k` of a frame on (R75). -/
def stamped (t0 : Timestamp) (dt k : Nat) (l : List Byte) : List (Byte × Timestamp) :=
  (l.zipIdx k).map fun b => (b.1, frameTime t0 dt b.2)

theorem stamped_cons (t0 : Timestamp) (dt k : Nat) (b : Byte) (l : List Byte) :
    stamped t0 dt k (b :: l) = (b, frameTime t0 dt k) :: stamped t0 dt (k + 1) l := rfl

theorem length_stamped (t0 : Timestamp) (dt k : Nat) (l : List Byte) : (stamped t0 dt k l).length = l.length := by
  simp [stamped]

theorem map_fst_stamped (t0 : Timestamp) (dt k : Nat) (l : List Byte) : (stamped t0 dt k l).map Prod.fst = l := by
  simp [stamped, Function.comp_def]

theorem frameTime_zero (t0 : Timestamp) (dt : Nat) : frameTime t0 dt 0 = t0 := by simp [frameTime]

/-- The bytes of a frame are `dt` apart. -/
theorem gap_frameTime (t0 : Timestamp) {dt : Nat} (hdt : dt ≤ 5000) (k : Nat) :
    (gap (frameTime t0 dt (k + 1)) (frameTime t0 dt k)).toNat ≤ 5000 := by
  have hgap : gap (frameTime t0 dt (k + 1)) (frameTime t0 dt k) = BitVec.ofNat 32 dt := by
    rw [gap, frameTime, frameTime, Nat.succ_mul, BitVec.ofNat_add]
    ring
  rw [hgap, BitVec.toNat_ofNat]
  omega

theorem gapsWithin_stamped (t0 : Timestamp) {dt : Nat} (hdt : dt ≤ 5000) (k : Nat) (l : List Byte) :
    GapsWithin (frameTime t0 dt k) (stamped t0 dt (k + 1) l) := by
  induction l generalizing k with
  | nil => trivial
  | cons b l ih => exact ⟨gap_frameTime t0 hdt k, ih (k + 1)⟩

/-- RXFRAME is the RX_BYTEs of its stamped bytes (R75). -/
theorem rxFrame_eq (t0 : Timestamp) (dt : Nat) (b : Vector Byte 21) :
    rxFrame t0 dt b = rxBytes (stamped t0 dt 0 b.toList) := by
  apply List.ext_getElem
  · simp [rxFrame, rxBytes, stamped]
  · intro n _ _
    simp [rxFrame, rxBytes, stamped]

theorem map_snd_stamped (t0 : Timestamp) (dt k : Nat) (l : List Byte) :
    (stamped t0 dt k l).map Prod.snd = (List.range' k l.length).map (frameTime t0 dt) := by
  rw [stamped, List.map_map, ← List.zipIdx_map_snd, List.map_map]
  rfl

/-- A whole frame received (R71, R83 to R87). -/
theorem receivedAll_stamped {s : State} {t0 : Timestamp} {dt : Nat} (b : Vector Byte 21) (hdt : dt ≤ 5000)
    (hfirst : s.cursor = 0 ∨ 5000 < (gap t0 s.tLast).toNat) :
    receivedAll (stamped t0 dt 0 b.toList) s =
      { s with buf := b, cursor := 20, ready := true, tLast := frameTime t0 dt 20 } := by
  have hbytes := map_fst_stamped t0 dt 0 b.toList
  have htimes := map_snd_stamped t0 dt 0 b.toList
  have hlen : b.toList.length = 21 := by simp
  obtain ⟨first, l, hl⟩ : ∃ first l, b.toList = first :: l := List.exists_cons_of_length_pos (by omega)
  have hgaps := frameTime_zero t0 dt ▸ gapsWithin_stamped t0 hdt 0 l
  rw [hlen] at htimes
  rw [hl, stamped_cons, frameTime_zero] at hbytes htimes ⊢
  rw [hl] at hlen
  obtain ⟨hbuf, hall⟩ :=
    receivedAll_aligned (b := (first, t0)) (by rw [length_stamped]; simpa using hlen) hfirst hgaps
  have hb : (receivedAll ((first, t0) :: stamped t0 dt 1 l) s).buf = b := by
    apply Vector.ext
    intro n hn
    have hk := hbuf ⟨n, hn⟩
    rw [hbytes, ← hl] at hk
    simpa [List.getElem?_eq_getElem, hn] using hk
  rw [hall, hb, htimes]
  rfl

/-! ### The producer's turns -/

/-- `s` once the producer has taken some turns and words: those left are `rest` and `cmds`. -/
def produced (cmds : List CmdWord) (rest : List Turn) (s : State) : State :=
  { s with producerPort := cmds, schedule := rest }

theorem receivedAll_produced (l : List (Byte × Timestamp)) (cmds : List CmdWord) (rest : List Turn) (s : State) :
    receivedAll l (produced cmds rest s) = produced cmds rest (receivedAll l s) := by
  induction l generalizing s with
  | nil => rfl
  | cons b l ih => exact ih (received b.1 b.2 s)

/-- The producer's turns receive the bytes at its port, whatever the consumer is doing (R89). -/
theorem run_receive (l : List (Byte × Timestamp)) {s : State} {cmds : List CmdWord} {rest : List Turn}
    (hp : s.producerPort = (rxBytes l).map encode ++ cmds)
    (hs : s.schedule = List.replicate l.length .producer ++ rest) :
    run l.length s = .next (produced cmds rest (receivedAll l s)) := by
  induction l generalizing s with
  | nil =>
    have hp' : s.producerPort = cmds := hp
    have hs' : s.schedule = rest := hs
    rw [produced, receivedAll, ← hp', ← hs']
    rfl
  | cons b l ih =>
    have hstep : step s = .next (produced ((rxBytes l).map encode ++ cmds)
        (List.replicate l.length .producer ++ rest) (received b.1 b.2 s)) :=
      (step_of_producer_rxByte hs hp).trans (exec_rxByte_received b.1 b.2 _)
    rw [List.length_cons, run_succ _ hstep, ih rfl rfl, receivedAll_produced]
    rfl

/-! ### A frame received, polled and read -/

/-- The two bytes of a raw value, the high one first (R42, R75). -/
theorem extract_append_extract (raw : RawWord) : raw.extractLsb' 8 8 ++ raw.extractLsb' 0 8 = raw := by
  ext n hn
  simp
  grind

/-- A frame of raw values decodes to their scalars (R75, R106, R107). -/
theorem channelsOf_snapshot_frameOfRaw {s : State} {r : Vector RawWord 8} (h : s.buf = frameOfRaw r) (i : Fin 8) :
    (channelsOf (snapshot s))[i] = scale r[i] := by
  have hbytes : (frameOfRaw r)[slotIndex (highSlot i)] ++ (frameOfRaw r)[slotIndex (lowSlot i)] =
      r[i].extractLsb' 8 8 ++ r[i].extractLsb' 0 8 := by
    fin_cases i <;> rfl
  rw [channelsOf_getElem, snapshot_getElem, snapshot_getElem, h, hbytes, extract_append_extract]

/-- READ of a decoded frame. -/
theorem muxValue_of_frameOfRaw {s t : State} {r : Vector RawWord 8} (h : s.buf = frameOfRaw r)
    (ht : t.ch = channelsOf (snapshot s)) (idx : Byte) :
    muxValue idx t = if h : idx.toNat < 8 then scale r[idx.toNat] else 0 := by
  rw [muxValue_eq, ht]
  split_ifs with hidx
  · exact channelsOf_snapshot_frameOfRaw h ⟨idx.toNat, hidx⟩
  · rfl

/-- An idle consumer's turn with a READ at its port. -/
theorem step_of_consumer_read {s : State} {pick : Nat} {rest : List Turn} {idx : Byte} {cmds : List CmdWord}
    (hs : s.schedule = .consumer pick :: rest) (hi : s.pphase = .idle)
    (hp : s.consumerPort = encode (.read idx) :: cmds) :
    step s = .next (respond (.rdValue (muxValue idx s)) (consumed cmds rest s)) :=
  (step_of_consumer_word hs hi hp).trans
    ((issueCommand_ok (decode_encode (.read idx))).trans (exec_read (s := consumed cmds rest s) idx hi))

/-- A frame's worth of producer turns with RXFRAME at the port. -/
theorem run_rxFrame {s : State} {t0 : Timestamp} {dt : Nat} {b : Vector Byte 21} {cmds : List CmdWord}
    {rest : List Turn} (hdt : dt ≤ 5000) (hfirst : s.cursor = 0 ∨ 5000 < (gap t0 s.tLast).toNat)
    (hp : s.producerPort = (rxFrame t0 dt b).map encode ++ cmds)
    (hs : s.schedule = List.replicate 21 .producer ++ rest) :
    run 21 s = .next (produced cmds rest
      { s with buf := b, cursor := 20, ready := true, tLast := frameTime t0 dt 20 }) := by
  have hlen : (stamped t0 dt 0 b.toList).length = 21 := by rw [length_stamped, Vector.length_toList]
  have hrun := run_receive (stamped t0 dt 0 b.toList) (rest := rest) (rxFrame_eq t0 dt b ▸ hp) (by rw [hlen, hs])
  rwa [hlen, receivedAll_stamped b hdt hfirst] at hrun

/-- An uninterrupted POLL and then a READ. -/
theorem run_poll_read {s : State} {picks : List Nat} {rest : List Turn} {idx : Byte} {cmds : List CmdWord}
    (hi : s.pphase = .idle) (hp : s.consumerPort = encode .poll :: encode (.read idx) :: cmds)
    (hlen : picks.length = pollTurns s + 1) (hs : s.schedule = consumerPicks picks ++ rest) :
    ∃ t cmds' rest', AfterPoll s cmds' rest' t ∧
      run picks.length s = .next (respond (.rdValue (muxValue idx t)) (consumed cmds rest t)) := by
  obtain ⟨init, last, hinit, happend⟩ := exists_consumerPicks_concat hlen
  obtain ⟨t, hpoll, ht⟩ := run_poll (rest := .consumer last :: rest) hi hp hinit (hs.trans (happend rest))
  refine ⟨t, _, _, ht, ?_⟩
  rw [hlen, run_add _ 1 hpoll, run_one, step_of_consumer_read ht.schedule ht.pphase ht.consumerPort]

/-- Settles O52: the frame is received, the POLL decodes it, whose markers pass, and READ answers from the new table. -/
theorem frameReceivedPolledAndRead : Obligations.FrameReceivedPolledAndRead := by
  intro s t0 dt r idx picks pcmds ccmds rest hi hfirst hdt hp hc hlen hs
  have hreceive := run_rxFrame hdt hfirst hp (hs.trans (List.append_assoc _ _ _))
  generalize hu : produced pcmds (consumerPicks picks ++ rest)
    { s with buf := frameOfRaw r, cursor := 20, ready := true, tLast := frameTime t0 dt 20 } = u at hreceive
  have hbuf : u.buf = frameOfRaw r := hu ▸ rfl
  have hready : u.ready = true := hu ▸ rfl
  have hmarkers : u.buf[0] = 0xA8 ∧ u.buf[19] = 0x00 := by rw [hbuf]; exact ⟨rfl, rfl⟩
  have hturns : picks.length = pollTurns u + 1 := by
    have hcfg : u.cfg = s.cfg := hu ▸ rfl
    rw [hlen, pollTurns, hready, hcfg]
    simp only [Bool.true_eq_false, or_false]
    split_ifs <;> rfl
  obtain ⟨t, _, _, ht, hrun⟩ :=
    run_poll_read (s := u) (rest := rest) (cmds := ccmds) (idx := idx) (hu ▸ hi) (hu ▸ hc) hturns (hu ▸ rfl)
  have hch : t.ch = channelsOf (snapshot u) := ht.ch.trans (if_pos ⟨hready, hmarkers⟩)
  have hresponses : t.responses = .pollNew true :: s.responses := by
    rw [ht.responses, hready, valid_iff.mpr hmarkers, ← hu]
    rfl
  refine ⟨_, (run_add 21 _ hreceive).trans hrun, ?_, ht.ready, ht.pphase, ?_, ?_, ?_⟩
  · rw [muxValue_of_frameOfRaw hbuf hch]
    exact congrArg (Response.rdValue _ :: ·) hresponses
  · exact ht.cursor.trans (hu ▸ rfl)
  · exact ht.tLast.trans (hu ▸ rfl)
  · exact ht.refused.trans (hu ▸ rfl)

end Sys2Proof.Machine
end
